-- ==== Sys2Proof/Word.lean ====
section
/-! DEFINITION. The word types of the station's byte streams and checks. Everything the manual treats as
bits is one of these; quantities in dt, mm, dt·mm and ms are integers (R1, 00_scope.md section 4.2). -/

namespace Sys2Proof

/-- One byte of a deck link frame, a panel record, a sensor record or the commissioning memory. -/
abbrev Byte := BitVec 8

/-- The register of the CRC-16 of frames and records (R107). -/
abbrev Word16 := BitVec 16

/-- The register of the CRC-32 of the table image and the station section (R18). -/
abbrev Word32 := BitVec 32

end Sys2Proof
end

