-- ==== Sys2Proof/Machine/Types.lean ====
section
/-! DEFINITION. The records and names of the manual as plain data: tables (chapter 1), items and map entries
(chapter 2), trials (chapter 3), condition records (chapter 4), peer entries (chapter 5), frames (chapter 6),
claims (chapter 7), sensing and lines (chapter 8), pumping (chapter 9), events and journal (chapter 10),
requests and responses (chapter 11). No meaning stands here. -/

namespace Sys2Proof.Machine

/-! ### Ship axes (00_scope.md 4.1) -/

/-- A position in the ship's axes, mm: x forward of AP, y to starboard, z above the baseline. -/
structure Point where
  x : Int
  y : Int
  z : Int
  deriving DecidableEq, Repr

/-! ### Chapter 1: the table image and the station section -/

/-- The role of a station (00_scope.md 2.1, R11). -/
inductive Role
  | crane | desk | tank
  deriving DecidableEq, Repr

/-- The cause of a reset (R193). -/
inductive ResetCause
  | powerOn | brownOut | restartLine | panelRestart
  deriving DecidableEq, Repr

/-- The header of the commissioning memory (R3). -/
structure Header where
  format : Nat
  rows : Nat
  sections : Nat
  compartments : Nat
  deriving DecidableEq, Repr

/-- The particulars record, fields 1 to 17 in order (R4). -/
structure Particulars where
  lpp : Int
  halfBreadth : Int
  maxDraft : Int
  minAftDraft : Int
  trimMin : Int
  trimMax : Int
  gmMin : Int
  staticHeel : Int
  liftHeel : Int
  degradedGm : Int
  degradedHeel : Int
  gmBand : Int
  staticHeelBand : Int
  liftHeelBand : Int
  trimBand : Int
  maxDraftBand : Int
  minAftBand : Int
  deriving DecidableEq, Repr

/-- The pair f_k, a_k of a hull row (R5). -/
structure RowPair where
  f : Int
  a : Int
  deriving DecidableEq, Repr

/-- One hull row (R5). -/
structure HullRow where
  t : Int
  d : Int
  km : Int
  lcb : Int
  lcf : Int
  mtm : Int
  pairs : List RowPair
  deriving DecidableEq, Repr

/-- An aft mass and an aft moment about a check section (R6, R61). -/
structure AftSum where
  mass : Int
  moment : Int
  deriving DecidableEq, Repr

/-- The lightship record (R6). -/
structure Lightship where
  mass : Int
  centre : Point
  aft : List AftSum
  deriving DecidableEq, Repr

/-- A check section (R7). -/
structure CheckSection where
  x : Int
  sfLimit : Int
  sfBand : Int
  hogLimit : Int
  hogBand : Int
  sagLimit : Int
  sagBand : Int
  deriving DecidableEq, Repr

/-- The kind of a compartment (R8). -/
inductive CompKind
  | hold | tweenDeck | hatchCover | deckArea | tank
  deriving DecidableEq, Repr

/-- The tank data of a TANK compartment (R9). -/
structure TankData where
  capacity : Int
  height : Int
  floorZ : Int
  x : Int
  y : Int
  slackFsm : Int
  minLevel : Int
  maxLevel : Int
  deriving DecidableEq, Repr

/-- A compartment record (R8). `kind` is none where the memory holds no kind of the table. -/
structure Compartment where
  kind : Option CompKind
  owner : Int
  xFrom : Int
  xTo : Int
  yFrom : Int
  yTo : Int
  zFrom : Int
  zTo : Int
  pressure : Option Int
  maxMass : Int
  tank : Option TankData
  deriving DecidableEq, Repr

/-- The segregation matrix, nine rows of nine codes, and the distances d1, d2, d3 (R10). -/
structure Segregation where
  matrix : List (List Int)
  d1 : Int
  d2 : Int
  d3 : Int
  deriving DecidableEq, Repr

/-- The table image (01 section 1.1). -/
structure TableImage where
  particulars : Particulars
  rows : List HullRow
  lightship : Lightship
  sections : List CheckSection
  compartments : List Compartment
  segregation : Segregation
  deriving DecidableEq, Repr

/-- The quiet filter setting (R11, field 5). -/
inductive QuietFilter
  | s4 | s60 | s300 | off
  deriving DecidableEq, Repr

/-- An entry of the journal filter; 0 stands for any (R11, field 8). -/
structure FilterEntry where
  station : Int
  cls : Int
  deriving DecidableEq, Repr

/-- The crane data record (R12). -/
structure CraneData where
  pedestalX : Int
  pedestalY : Int
  jibHead : Int
  rmin : Int
  rmax : Int
  swl : Int
  pick : Int
  release : Int
  overloadTol : Int
  rigging : Int
  radiusMargin : Int
  slewMargin : Int
  hookMassThreshold : Int
  hookPosThreshold : Int
  liftTimeLimit : Int
  inclinometer : Option Bool
  heelTolerance : Option Int
  deriving DecidableEq, Repr

/-- The pump data record (R13). The dead interval is in steps of 0.5 s. -/
structure PumpData where
  portTank : Int
  stbdTank : Int
  startBand : Int
  stopBand : Int
  deadSteps : Int
  autoDefault : Option Bool
  tankThreshold : Int
  deriving DecidableEq, Repr

/-- The sense of a discrete line (R14). -/
inductive Sense
  | plain | inverted
  deriving DecidableEq, Repr

/-- The function of a discrete line (R14). -/
inductive LineFunction
  | input | outputLow | outputHigh | alarm
  | hoistPermit | slewCwPermit | slewCcwPermit | outreachPermit
  | localStop | setdownButton | pumpPs | pumpSp
  deriving DecidableEq, Repr

/-- One entry of the line configuration (R14). `function` is none for a code outside the table. -/
structure LineEntry where
  sense : Sense
  function : Option LineFunction
  deriving DecidableEq, Repr

/-- The station section (R11 to R14). `role`, `quiet` are none for a code outside their tables. -/
structure StationSection where
  number : Int
  role : Option Role
  period : Int
  hold : Int
  quiet : Option QuietFilter
  envelopeMass : Int
  envelopePoint : Point
  filter : List FilterEntry
  crane : Option CraneData
  pump : Option PumpData
  lines : List LineEntry
  deriving DecidableEq, Repr

/-- What the commissioning memory answers to a read, in R3's order, or that it ends early or is absent. The
image and the section come with the bytes their checks are computed over (log 4). -/
inductive MemoryPart
  | header (h : Header)
  | image (t : TableImage) (bytes : List Byte)
  | tableCheck (v : Word32)
  | stationSection (t : StationSection) (bytes : List Byte)
  | sectionCheck (v : Word32)
  | ended
  | absent
  deriving DecidableEq, Repr

/-- The contents state of the table store (R2). -/
inductive Contents
  | empty | loaded | invalid
  deriving DecidableEq, Repr

/-- The fourteen fault kinds in validation order, and NONE (R19). -/
inductive FaultKind
  | none | memoryUnreadable | format | tableCheck | sectionCheck | particulars | rows | lightship
  | sections | compartments | segregationTable | stationNumber | stationFields | lines | roleSection
  deriving DecidableEq, Repr

/-- The fault record (R19). -/
structure FaultRecord where
  kind : FaultKind
  detail : Nat
  deriving DecidableEq, Repr

/-- The table store (R2, R3, R19). -/
structure TableStore where
  contents : Contents
  header : Option Header
  image : Option TableImage
  imageCrc : Option Word32
  tableCheck : Option Word32
  stationSection : Option StationSection
  sectionCrc : Option Word32
  sectionCheck : Option Word32
  attempts : Nat
  readAt : Nat
  fault : FaultRecord
  identity : Option Word32
  number : Option Nat
  deriving DecidableEq, Repr

/-! ### Chapter 2: items and the classed-item map -/

/-- The state of an item (R22). -/
inductive ItemState
  | plannedIn | stowed | plannedOut | slung | landed | unresolved
  deriving DecidableEq, Repr

/-- The direction of a lifted item (R22). -/
inductive Direction
  | inbound | outbound
  deriving DecidableEq, Repr

/-- A landing point with its aboard flag (R22, R32). -/
structure Landing where
  point : Point
  aboard : Bool
  deriving DecidableEq, Repr

/-- An item record (R22). -/
structure Item where
  number : Nat
  label : Nat
  mass : Int
  planned : Point
  comp : Nat
  length : Int
  breadth : Int
  cls : Option Nat
  state : ItemState
  direction : Option Direction
  stowed : Option Point
  landing : Option Landing
  deriving DecidableEq, Repr

/-- An entry of the classed-item map, keyed by (station, item) (R26). -/
structure MapEntry where
  station : Nat
  item : Nat
  cls : Nat
  x : Int
  y : Int
  comp : Nat
  deriving DecidableEq, Repr

/-- How an item movement ended (R36, R111). -/
inductive Ending
  | stowed | restowed | returned | discharged | abandoned | shoreStowed | shoreDischarged
  deriving DecidableEq, Repr

/-- The stowage list unit. -/
structure Stowage where
  items : List Item
  map : List MapEntry
  mapIncomplete : Bool
  settleStart : Option Nat
  deriving DecidableEq, Repr

/-! ### Chapter 3: the trial stack -/

/-- An entry of the trial stack (R44). -/
inductive TrialEntry
  | add (mass : Int) (pos : Point) (comp : Nat) (length breadth : Int) (cls : Option Nat)
  | move (item : Nat) (pos : Point) (comp : Nat) (voided : Bool)
  deriving DecidableEq, Repr

/-! ### Chapter 7: claims -/

/-- The state field of a claim record (R123). -/
inductive ClaimPhase
  | announced | committed
  deriving DecidableEq, Repr

/-- The source of a claim (R123). -/
structure ClaimSource where
  mass : Int
  point : Point
  inBase : Bool
  deriving DecidableEq, Repr

/-- A claim record (R123). `phase` is none while no state field is in force. -/
structure ClaimRecord where
  station : Nat
  number : Nat
  cls : Nat
  phase : Option ClaimPhase
  item : Nat
  mass : Int
  a1 : Nat
  a2 : Nat
  maxRadius : Int
  worst : Point
  source : Option ClaimSource
  deriving DecidableEq, Repr

/-- The own claim state (R125). -/
inductive ClaimState
  | none | probing | announced | backoff | committed
  deriving DecidableEq, Repr

/-- The claim unit (R125). -/
structure ClaimUnit where
  state : ClaimState
  nextNumber : Nat
  record : Option ClaimRecord
  withdrawals : Nat
  holdExpiry : Option Nat
  backoffExpiry : Option Nat
  commitTime : Option Nat
  overdue : Bool
  conflict : Bool
  pending : Bool
  deriving DecidableEq, Repr

/-! ### Chapter 4: terms, snapshots and condition records -/

/-- A point term (R61). -/
structure PointTerm where
  mass : Int
  point : Point
  fsm : Int
  deriving DecidableEq, Repr

/-- An aggregate term, and the sums of a solution (R61, R69). -/
structure Aggregate where
  mass : Int
  mx : Int
  my : Int
  mz : Int
  fs : Int
  aft : List AftSum
  deriving DecidableEq, Repr

/-- A hook term: load and hook position (R62). -/
structure HookTerm where
  load : Int
  point : Point
  deriving DecidableEq, Repr

/-- The verdict of a solution, or NOT_YET (R54, R81). -/
inductive Verdict
  | notYet | green | amber | red | void
  deriving DecidableEq, Repr

/-- The flavour of a condition record (R82). -/
inductive Flavour
  | actual | lift | final | probe
  deriving DecidableEq, Repr

/-- The outcome of a check (R77, R80). -/
inductive CheckOutcome
  | ok | warn | breach | na
  deriving DecidableEq, Repr

/-- Which check a result belongs to (R78). -/
inductive CheckName
  | gm | heel | trim | maxDraftAft | maxDraftForward | minDraftAft
  | shear (k : Nat) | bending (k : Nat) | compartment (id : Nat)
  deriving DecidableEq, Repr

/-- A limit in force with its warn band (R77). -/
structure Limit where
  limit : Int
  band : Int
  deriving DecidableEq, Repr

/-- One entry of the check list of a condition record (R78, R82). -/
structure CheckResult where
  name : CheckName
  value : Option Int
  lower : Option Limit
  upper : Option Limit
  outcome : CheckOutcome
  deriving DecidableEq, Repr

/-- The included-claims counts (R82). -/
structure IncludedCounts where
  committed : Nat
  peersCommitted : Nat
  ownCommitted : Nat
  pseudo : Nat
  outranking : Nat
  deriving DecidableEq, Repr

/-- The own claim seen by a LIFT or a probe: the state and number in the snapshot (R82). -/
structure ClaimSeen where
  state : ClaimState
  number : Option Nat
  deriving DecidableEq, Repr

/-- LCG, TCG, KG, FSC (R71). -/
structure Centres where
  lcg : Int
  tcg : Int
  kg : Int
  fsc : Int
  deriving DecidableEq, Repr

/-- SF_k and the reported BM_k (R76). -/
structure StrengthValue where
  sf : Int
  bm : Int
  deriving DecidableEq, Repr

/-- The values of a solution that is not VOID (R72 to R76). -/
structure SolvedValues where
  row : Nat
  t : Int
  ta : Int
  tf : Int
  trim : Int
  km : Int
  lcb : Int
  lcf : Int
  mtm : Int
  gm : Int
  heel : Option Int
  strength : List StrengthValue
  checks : List CheckResult
  deriving DecidableEq, Repr

/-- A published record: `solved` is none when the status is VOID (R81, R82). -/
structure CondBody where
  passNumber : Nat
  snapshotTime : Nat
  clean : Bool
  strengthJudged : Bool
  included : Option IncludedCounts
  ownSeen : Option ClaimSeen
  delta : Int
  centres : Option Centres
  solved : Option SolvedValues
  verdict : Verdict
  deriving DecidableEq, Repr

/-- A condition record; `body` is none in the NOT_YET status (R82). -/
structure CondRecord where
  flavour : Flavour
  body : Option CondBody
  deriving DecidableEq, Repr

/-! ### Chapter 5: peer entries -/

/-- Freshness of a peer entry (R92). -/
inductive PeerState
  | fresh | stale | lost
  deriving DecidableEq, Repr

/-- Identity status of a peer entry (R91). -/
inductive IdentityStatus
  | matching | mismatch | unknown
  deriving DecidableEq, Repr

/-- What a peer's latest accepted ROLLCALL declared (R86). -/
structure RollInfo where
  role : Role
  identity : Word32
  period : Int
  envelopeMass : Int
  envelopePoint : Point
  cause : ResetCause
  deriving DecidableEq, Repr

/-- What a peer's latest accepted SHARE carried (R86, R87). -/
structure ShareInfo where
  listen : Bool
  quiet : Bool
  clean : Bool
  base : Aggregate
  hook : Option HookTerm
  planned : Aggregate
  deriving DecidableEq, Repr

/-- A peer entry (R86). `roll` is none until a ROLLCALL, `share` until a SHARE. -/
structure PeerEntry where
  station : Nat
  roll : Option RollInfo
  identity : IdentityStatus
  share : Option ShareInfo
  claim : Option ClaimRecord
  state : PeerState
  lastHeard : Nat
  deriving DecidableEq, Repr

/-- The peer view (R85, R97, R98, R100). -/
structure View where
  entries : List PeerEntry
  failureAt : Option Nat
  windowOpen : Bool
  clean : Bool
  agreement : Bool
  heelFilter : Option Nat
  deriving DecidableEq, Repr

/-- A snapshot, the solver's copy of its inputs (R57). `claimNumber` is the number of the own claim in every state but
NONE. -/
structure Snapshot where
  time : Nat
  items : List Item
  trials : List TrialEntry
  hook : Option HookTerm
  tanks : List PointTerm
  peers : List PeerEntry
  claimState : ClaimState
  claimNumber : Option Nat
  claim : Option ClaimRecord
  clean : Bool
  deriving DecidableEq, Repr

/-- The condition solver (R54). `pass` is none while IDLE. -/
structure Solver where
  pass : Option Snapshot
  dirty : Bool
  passNumber : Nat
  lastStart : Option Nat
  actual : CondRecord
  lift : CondRecord
  final : CondRecord
  probe : CondRecord
  prevActual : Verdict
  prevLift : Verdict
  deriving DecidableEq, Repr

/-! ### Chapter 6: frames and the transmit queue -/

/-- The contents of a ROLLCALL (R107, R109). -/
structure RollcallBody where
  role : Role
  identity : Word32
  cause : ResetCause
  startFlag : Bool
  requestFlag : Bool
  period : Int
  envelopeMass : Int
  envelopePoint : Point
  deriving DecidableEq, Repr

/-- The contents of a SHARE (R110). -/
structure ShareBody where
  quiet : Bool
  clean : Bool
  listen : Bool
  base : Aggregate
  planned : Aggregate
  hook : Option HookTerm
  claim : Option ClaimRecord
  deriving DecidableEq, Repr

/-- The contents of a DONE: claim number, outcome and item summary (R36, R111). -/
structure DoneBody where
  claim : Nat
  ending : Ending
  item : Nat
  label : Nat
  mass : Int
  comp : Nat
  cls : Option Nat
  position : Option Point
  deriving DecidableEq, Repr

/-- The contents of a TAG (R112). -/
structure TagBody where
  item : Nat
  cls : Nat
  present : Bool
  x : Int
  y : Int
  comp : Nat
  deriving DecidableEq, Repr

/-- The contents of a frame of each kind (R107). -/
inductive FrameBody
  | rollcall (b : RollcallBody)
  | share (b : ShareBody)
  | claim (c : ClaimRecord)
  | yield (number : Nat)
  | done (b : DoneBody)
  | tag (b : TagBody)
  deriving DecidableEq, Repr

/-- A frame: source station and contents (R107). -/
structure Frame where
  source : Nat
  body : FrameBody
  deriving DecidableEq, Repr

/-- A fixed frame waiting in the transmit queue; a ROLLCALL is formed at its first attempt (R113). -/
inductive Fixed
  | rollcall (request : Bool)
  | claim (c : ClaimRecord)
  | yield (number : Nat)
  | done (b : DoneBody)
  | tag (b : TagBody)
  deriving DecidableEq, Repr

/-- Where the frame in transmission stands: an attempt is on the line, or a random delay runs until a time,
or the next attempt may start (R106). -/
inductive TxPhase
  | sending
  | backoff (until_ : Nat)
  | ready
  deriving DecidableEq, Repr

/-- The frame in transmission (R106, R113). -/
structure Transmission where
  frame : Frame
  attempts : Nat
  phase : TxPhase
  deriving DecidableEq, Repr

/-- The reference values taken at the forming of the latest SHARE (R115). -/
structure ShareRef where
  hook : Option HookTerm
  tanks : List Int
  deriving DecidableEq, Repr

/-- The TAG rotation pointer: the place of the item last named, and whether that item has gone (R118). -/
structure RotationPointer where
  place : Nat
  gone : Bool
  deriving DecidableEq, Repr

/-- The link controller (R105, R106, R113 to R118). `out` lists the frames sent, as bytes (log 14); `draws`
counts the random delays drawn (log 10). `wakeCause` is the model's own: the placeholder that waits was queued by a wake,
and no other cause has come since (R121, R173; log 45). -/
structure Link where
  queue : List Fixed
  placeholder : Bool
  wakeCause : Bool
  tx : Option Transmission
  shareStart : Option Nat
  spacing : Bool
  shareRef : Option ShareRef
  startFlag : Bool
  answerAt : Option Nat
  rotationAt : Option Nat
  rotation : Option RotationPointer
  tagged : List TagBody
  draws : Nat
  out : List (List Byte)
  deriving DecidableEq, Repr

/-! ### Chapter 8: sensing, permits and lines -/

/-- The state of the sensor port (R147, R166). -/
inductive PortState
  | fresh | holding | lost
  deriving DecidableEq, Repr

/-- The sensor port, alike at a CRANE and a TANK station (R145, R147, R166). -/
structure Sensor where
  port : PortState
  lastRecord : Option Nat
  lostReported : Bool
  discarded : Nat
  deriving DecidableEq, Repr

/-- A HOOK record as sent (R145). -/
structure HookRecord where
  load : Int
  slew : Nat
  radius : Int
  height : Int
  heel : Option Int
  deriving DecidableEq, Repr

/-- The held, clamped values of the latest accepted HOOK record (R146). -/
structure HookValues where
  load : Int
  slew : Nat
  radius : Int
  height : Int
  deriving DecidableEq, Repr

/-- The four permits (R154). -/
structure Permits where
  hoist : Bool
  slewCw : Bool
  slewCcw : Bool
  outreach : Bool
  deriving DecidableEq, Repr

/-- The crane supervisor (R146 to R159). -/
structure Crane where
  held : Option HookValues
  heel : Option Int
  lastLoaded : Option Point
  carrying : Bool
  unclaimed : Bool
  overload : Bool
  verdict : Verdict
  permits : Permits
  deriving DecidableEq, Repr

/-- One discrete line as sampled: raw level (true: at its on level), the time since which it has held or been
sampled, and the filtered state (R160). -/
structure LineInput where
  raw : Bool
  since : Nat
  filtered : Bool
  deriving DecidableEq, Repr

/-- The line block: whether the configuration is applied, and lines L1..L12 in order (R14, R160); `frozen` holds the
lines as they stood at the entry to HALT, for the status record (R189; log 19). -/
structure Lines where
  applied : Bool
  inputs : List LineInput
  frozen : Option (List LineInput)
  deriving DecidableEq, Repr

/-! ### Chapter 9: pumping -/

/-- A pump demand (R168). -/
inductive Demand
  | none | ps | sp
  deriving DecidableEq, Repr

/-- The state of a pump output (R168). -/
inductive OutState
  | inactive | waiting | active
  deriving DecidableEq, Repr

/-- The pump controller (R166, R168). `duePs` and `dueSp` are the model's own: the moment at which an ACTIVE output's
dead interval ran out, none for one that did not wait (R173; log 45). -/
structure Pump where
  auto : Bool
  autoDemand : Demand
  manualDemand : Demand
  suspended : Bool
  ps : OutState
  sp : OutState
  offPs : Nat
  offSp : Nat
  duePs : Option Nat
  dueSp : Option Nat
  levels : Option (List Int)
  deriving DecidableEq, Repr

/-! ### Chapter 10: events and the journal -/

/-- The 22 event kinds (chapter 10, table of section 10.1), in the order of their codes. -/
inductive EventKind
  | peerStale | peerLost | peerBack | tableMismatch | frameCheck | linkTx | sensorLost | heelMismatch
  | limitAmber | limitRed | claimYielded | claimConflict | liftOverdue | unclaimedLoad | claimOverload
  | segregation | tagMapFull | journalFull | pumpLimit | wake | duplicateStation | retainedLost
  deriving DecidableEq, Repr

/-- The report unit's latch, mask, held verdicts and alarm condition (R177 to R180). -/
structure Report where
  latched : List EventKind
  mask : List EventKind
  actual : Verdict
  lift : Verdict
  alarm : Bool
  deriving DecidableEq, Repr

/-- A journal record (R181). -/
structure JournalRecord where
  station : Nat
  claim : Nat
  item : Nat
  label : Nat
  ending : Ending
  mass : Int
  position : Option Point
  comp : Nat
  cls : Option Nat
  time : Int
  deriving DecidableEq, Repr

/-- The lift journal: both banks and the bank role (R181). -/
structure Journal where
  bankA : List JournalRecord
  bankB : List JournalRecord
  writeA : Bool
  deriving DecidableEq, Repr

/-! ### Chapter 11: the station, requests and responses -/

/-- The six station states (00_scope.md 2.4, R190 to R192). -/
inductive StationState
  | start | listen | run | quiet | fault | halt
  deriving DecidableEq, Repr

/-- What quiet operation stood at before an output became ACTIVE: the station state and the moment it was entered, the start
of the quiet filter, and whether WAKE was latched (R119, R121). -/
structure QuietBefore where
  state : StationState
  since : Nat
  quietStart : Option Nat
  wake : Bool
  deriving DecidableEq, Repr

/-- The station's own state and timer (R189, R190; 00_scope.md 4.4). `quietBefore` is the model's own: quiet operation as it
stood before the latest output became ACTIVE at the moment its dead interval ran out, none once an activity event has come
since (R173; log 45). -/
structure Station where
  state : StationState
  timer : Nat
  since : Nat
  cause : ResetCause
  retainedPassed : Bool
  listenAt : Option Nat
  quietStart : Option Nat
  quietBefore : Option QuietBefore
  frozenAt : Option Nat
  deriving DecidableEq, Repr

/-- The supply, the restart line and the pending reset (R193). -/
structure Power where
  low : Bool
  off : Bool
  line : Bool
  resetPending : Option ResetCause
  responseSent : Bool
  deriving DecidableEq, Repr

/-- The result codes 0..18 (chapter 11, section 11.2). -/
inductive ResultCode
  | accepted | announced | busy | role | state | unknownItem | itemState | listFull | stackFull | stackEmpty
  | range | notOwned | outOfCompartment | pressure | segregation | mapFull | limit | claimActive | loaded
  deriving DecidableEq, Repr

/-- The choice carried by RESOLVE ITEM (R39). -/
inductive ResolveChoice
  | stow (pos : Option Point) (comp : Option Nat)
  | plan
  | remove
  deriving DecidableEq, Repr

/-- A held claim as READ VIEW shows it (R103). -/
structure ClaimReadout where
  number : Nat
  cls : Nat
  phase : Option ClaimPhase
  mass : Int
  deriving DecidableEq, Repr

/-- One entry record of READ VIEW (R103). `listen` and `clean` are none where R86 leaves phase and clean flag
absent. -/
structure EntryReadout where
  station : Nat
  state : PeerState
  lastHeard : Nat
  roll : Option RollInfo
  identity : IdentityStatus
  listen : Option Bool
  quiet : Bool
  clean : Option Bool
  baseMass : Option Int
  hook : Option HookTerm
  plannedMass : Option Int
  claim : Option ClaimReadout
  deriving DecidableEq, Repr

/-- The response of READ VIEW: the view part and its entry records (R103). -/
structure ViewReadout where
  timer : Nat
  count : Nat
  clean : Bool
  parts : List Bool
  failureAt : Option Nat
  entries : List EntryReadout
  deriving DecidableEq, Repr

/-- The station part of the status record (R189). -/
structure StationPart where
  state : StationState
  timeIn : Nat
  timer : Nat
  cause : ResetCause
  retainedPassed : Option Bool
  fault : FaultRecord
  identity : Option Word32
  number : Option Nat
  role : Option Role
  period : Option Nat
  hold : Option Nat
  passNumber : Nat
  actual : Verdict
  lift : Verdict
  final : Verdict
  items : Nat
  trials : Nat
  voids : Nat
  mapCount : Nat
  mapIncomplete : Bool
  deriving DecidableEq, Repr

/-- The peer view part of the status record (R104). -/
structure ViewPart where
  count : Nat
  fresh : Nat
  stale : Nat
  lost : Nat
  matching : Nat
  mismatch : Nat
  unknown : Nat
  clean : Bool
  parts : List Bool
  agreement : Option Bool
  deriving DecidableEq, Repr

/-- The claim unit part of the status record (R144). `claim` carries number, class, item, claimed mass, worst
point and source. -/
structure ClaimPart where
  state : ClaimState
  claim : Option ClaimRecord
  withdrawals : Nat
  holdLeft : Option Nat
  backoffLeft : Option Nat
  sinceCommit : Option Nat
  overdue : Bool
  conflict : Bool
  nextNumber : Nat
  deriving DecidableEq, Repr

/-- The crane supervisor part of the status record (R164). -/
structure CranePart where
  port : PortState
  sinceRecord : Option Nat
  held : Option HookValues
  heel : Option Int
  position : Option Point
  lastLoaded : Option Point
  carrying : Bool
  unclaimed : Bool
  overload : Bool
  verdict : Verdict
  permits : Permits
  discarded : Nat
  deriving DecidableEq, Repr

/-- One line in the line block part: configured entry, filtered state of an input, driven level of an output
(none: undriven) (R164). -/
structure LineReadout where
  entry : Option LineEntry
  filtered : Option Bool
  driven : Option Bool
  deriving DecidableEq, Repr

/-- The line block part of the status record (R164). -/
structure LinePart where
  lines : List LineReadout
  safeState : Bool
  deriving DecidableEq, Repr

/-- An own tank in the pump controller part (R176). -/
structure TankReadout where
  level : Option Int
  term : Option PointTerm
  deriving DecidableEq, Repr

/-- The pump controller part of the status record (R176). -/
structure PumpPart where
  auto : Bool
  suspended : Bool
  autoDemand : Demand
  manualDemand : Demand
  effective : Demand
  ps : OutState
  sp : OutState
  offPs : Nat
  offSp : Nat
  waitLeft : Option Nat
  psLimit : Bool
  spLimit : Bool
  port : PortState
  sinceRecord : Option Nat
  discarded : Nat
  tanks : List TankReadout
  deriving DecidableEq, Repr

/-- The event latch, mask and alarm part of the status record (R178, R180). -/
structure ReportPart where
  latched : List EventKind
  mask : List EventKind
  alarm : Bool
  deriving DecidableEq, Repr

/-- The journal part of the status record (R185). -/
structure JournalPart where
  writeA : Bool
  countA : Nat
  countB : Nat
  filter : List FilterEntry
  deriving DecidableEq, Repr

/-- The status record; a part marked absent is none (R189). -/
structure StatusRecord where
  station : StationPart
  view : Option ViewPart
  claim : Option ClaimPart
  crane : Option CranePart
  lines : Option LinePart
  pump : Option PumpPart
  report : Option ReportPart
  journal : Option JournalPart
  deriving DecidableEq, Repr

/-- The contents of a response, by the rule of the request it answers. -/
inductive ResponseBody
  /-- Nothing but the result. -/
  | empty
  /-- ADD ITEM: the new item number (R28). -/
  | itemNumber (n : Nat)
  /-- LIST ITEMS: the count and up to 8 records (R42). -/
  | items (count : Nat) (records : List Item)
  /-- TRIAL ADD, TRIAL MOVE: stack position and entries held (R45, R46). -/
  | pushed (position count : Nat)
  /-- TRIAL DROP: whether the removed entry was a MOVE, and entries held (R49). -/
  | dropped (move : Bool) (count : Nat)
  /-- TRIAL CLEAR: entries held (R49). -/
  | held (count : Nat)
  /-- TRIAL ADOPT: the item numbers given, the VOID entries skipped, and the entries held (R51, R53). -/
  | adopted (numbers : List Nat) (voids count : Nat)
  /-- TRIAL ADOPT refused at an entry: its stack position and the entries held (R50, R53). -/
  | adoptFailed (position count : Nat)
  /-- LIFT REQUEST announced: the claim number (R129). -/
  | claimNumber (n : Nat)
  /-- LIFT REQUEST refused at its probe: probe verdict and pass number (R129). -/
  | probeRefused (verdict : Verdict) (passNumber : Nat)
  /-- READ CONDITION (R82). -/
  | condition (r : CondRecord)
  /-- READ VIEW (R103). -/
  | view (v : ViewReadout)
  /-- READ STATUS (R189). -/
  | status (r : StatusRecord)
  /-- READ EVENTS: the kinds removed and the mask in force (R178). -/
  | events (kinds mask : List EventKind)
  /-- READ JOURNAL: whether A is the read bank, both counts, up to 8 records (R185). -/
  | journal (readA : Bool) (readCount writeCount : Nat) (records : List JournalRecord)
  /-- SWITCH BANK: whether A is the new read bank, and its count (R184). -/
  | switched (readA : Bool) (count : Nat)
  deriving DecidableEq, Repr

/-- A response record: request code, sequence number, result and contents (11 section 11.1). -/
structure Response where
  code : Nat
  seq : Byte
  result : ResultCode
  body : ResponseBody
  deriving DecidableEq, Repr

/-- The request in progress (R187). -/
structure InProgress where
  code : Nat
  seq : Byte
  deriving DecidableEq, Repr

/-- The panel port controller (R187). `out` lists the responses in the order formed (log 14). -/
structure Panel where
  inProgress : Option InProgress
  out : List Response
  deriving DecidableEq, Repr

/-- The contents of retained memory (R38, R181, R194). -/
structure RetainedContents where
  items : List Item
  journal : Journal
  deriving DecidableEq, Repr

/-- A write to retained memory in progress and the response that waits for it (R38, R187). -/
structure WriteJob where
  contents : RetainedContents
  response : Option Response
  deriving DecidableEq, Repr

/-- Retained memory: the contents with the stored check, and the write in progress (R38, R194; log 8). -/
structure RetainedMemory where
  contents : RetainedContents
  check : Word32
  writing : Option WriteJob
  deriving DecidableEq, Repr

end Sys2Proof.Machine
end

