-- ==== Sys2Proof/Machine/Arith.lean ====
section
/-! DEFINITION. The station's arithmetic: rounded division (R1), the quarter-sine table and the sine and cosine of
a slew angle (R16, R17). -/

namespace Sys2Proof.Machine

/-- The quotient rounded to the nearest integer, halves away from zero (R1). -/
def roundDiv (n d : Int) : Int :=
  let q : Int := ((2 * n.natAbs + d.natAbs) / (2 * d.natAbs) : Nat)
  if n * d < 0 then -q else q

/-- `lo ≤ v ≤ hi`, both ends included (00_scope.md 1.3). -/
def within (lo v hi : Int) : Bool := decide (lo ≤ v) && decide (v ≤ hi)

/-- `v` brought into lo..hi. -/
def clamp (lo hi v : Int) : Int := if v < lo then lo else if hi < v then hi else v

/-- The quarter-sine table s[0..256] (R16). -/
def quarterSine : List Int :=
    [0, 201, 402, 603, 804, 1005, 1206, 1407, 1608, 1809, 2009, 2210, 2410, 2611, 2811, 3012] ++
    [3212, 3412, 3612, 3811, 4011, 4210, 4410, 4609, 4808, 5007, 5205, 5404, 5602, 5800, 5998, 6195] ++
    [6393, 6590, 6786, 6983, 7179, 7375, 7571, 7767, 7962, 8157, 8351, 8545, 8739, 8933, 9126, 9319] ++
    [9512, 9704, 9896, 10087, 10278, 10469, 10659, 10849, 11039, 11228, 11417, 11605, 11793, 11980, 12167, 12353] ++
    [12539, 12725, 12910, 13094, 13279, 13462, 13645, 13828, 14010, 14191, 14372, 14553, 14732, 14912, 15090, 15269] ++
    [15446, 15623, 15800, 15976, 16151, 16325, 16499, 16673, 16846, 17018, 17189, 17360, 17530, 17700, 17869, 18037] ++
    [18204, 18371, 18537, 18703, 18868, 19032, 19195, 19357, 19519, 19680, 19841, 20000, 20159, 20317, 20475, 20631] ++
    [20787, 20942, 21096, 21250, 21403, 21554, 21705, 21856, 22005, 22154, 22301, 22448, 22594, 22739, 22884, 23027] ++
    [23170, 23311, 23452, 23592, 23731, 23870, 24007, 24143, 24279, 24413, 24547, 24680, 24811, 24942, 25072, 25201] ++
    [25329, 25456, 25582, 25708, 25832, 25955, 26077, 26198, 26319, 26438, 26556, 26674, 26790, 26905, 27019, 27133] ++
    [27245, 27356, 27466, 27575, 27683, 27790, 27896, 28001, 28105, 28208, 28310, 28411, 28510, 28609, 28706, 28803] ++
    [28898, 28992, 29085, 29177, 29268, 29358, 29447, 29534, 29621, 29706, 29791, 29874, 29956, 30037, 30117, 30195] ++
    [30273, 30349, 30424, 30498, 30571, 30643, 30714, 30783, 30852, 30919, 30985, 31050, 31113, 31176, 31237, 31297] ++
    [31356, 31414, 31470, 31526, 31580, 31633, 31685, 31736, 31785, 31833, 31880, 31926, 31971, 32014, 32057, 32098] ++
    [32137, 32176, 32213, 32250, 32285, 32318, 32351, 32382, 32412, 32441, 32469, 32495, 32521, 32545, 32567, 32589] ++
    [32609, 32628, 32646, 32663, 32678, 32692, 32705, 32717, 32728, 32737, 32745, 32752, 32757, 32761, 32765, 32766] ++
    [32767]

/-- s[n] of the quarter-sine table (R16). -/
def sineEntry (n : Nat) : Int := quarterSine.getD n 0

/-- S(a): the starboard component along slew angle `a`, scaled by 32767 (R17). -/
def slewSine (a : Nat) : Int :=
  let n := a % 256
  match (a / 256) % 4 with
  | 0 => sineEntry n
  | 1 => sineEntry (256 - n)
  | 2 => -sineEntry n
  | _ => -sineEntry (256 - n)

/-- C(a) = S((a + 256) mod 1024): the forward component along slew angle `a` (R17). -/
def slewCosine (a : Nat) : Int := slewSine ((a + 256) % 1024)

/-- The point at radius `r` along slew angle `a` from a pedestal, at height `z` (R124, R149). -/
def radiusPoint (px py r z : Int) (a : Nat) : Point :=
  ⟨px + roundDiv (r * slewCosine a) 32767, py + roundDiv (r * slewSine a) 32767, z⟩

/-- The clockwise offset of slew angle `a` from `a1` (R123, R158). -/
def slewOffset (a1 a : Nat) : Nat := (a + 1024 - a1 % 1024) % 1024

/-- The width of a sector, 1024 for a full turn (R123). -/
def sectorWidth (a1 a2 : Nat) : Nat := if a1 = a2 then 1024 else slewOffset a1 a2

/-- Slew angle `a` lies inside the sector from `a1` to `a2` (R123). -/
def insideSector (a1 a2 a : Nat) : Bool := decide (slewOffset a1 a ≤ sectorWidth a1 a2)

/-- The position of the first failing check, counted from `n`. -/
def firstFail : Nat → List Bool → Option Nat
  | _, [] => none
  | n, b :: bs => if b then firstFail (n + 1) bs else some n

/-- The first result whose condition holds, in the order of a refusal table. -/
def firstRefusal : List (Bool × ResultCode) → Option ResultCode
  | [] => none
  | (b, r) :: rest => if b then some r else firstRefusal rest

end Sys2Proof.Machine
end

