-- ==== Sys2Proof/Machine/Codec.lean ====
section
/-! DEFINITION. The byte layouts the manual gives: the CRC-16 and CRC-32 (R18, R107), the six frame kinds
(R107, R110 to R112), the sensor records (R145, R165) and the panel record check (R186), each read and
written from the same tables; and the contents of retained memory as bytes for their check (R194). -/

namespace Sys2Proof.Machine

/-! ### Checks -/

/-- One bit into the CRC-16 register, generator x^16 + x^12 + x^5 + 1 (R107). -/
def crc16Bit (r : Word16) (b : Bool) : Word16 :=
  (r <<< 1) ^^^ (if r.msb != b then 0x1021#16 else 0#16)

/-- One byte into the CRC-16 register, most significant bit first (R107). -/
def crc16Byte (r : Word16) (x : Byte) : Word16 :=
  crc16Bit (crc16Bit (crc16Bit (crc16Bit (crc16Bit (crc16Bit (crc16Bit (crc16Bit r
    (x.getLsbD 7)) (x.getLsbD 6)) (x.getLsbD 5)) (x.getLsbD 4))
    (x.getLsbD 3)) (x.getLsbD 2)) (x.getLsbD 1)) (x.getLsbD 0)

/-- The CRC-16, preset to all ones and taken as it stands (R107). -/
def crc16 (bs : List Byte) : Word16 := bs.foldl crc16Byte 0xFFFF#16

/-- One bit into the CRC-32 register, with the generator of R18. -/
def crc32Bit (r : Word32) (b : Bool) : Word32 :=
  (r <<< 1) ^^^ (if r.msb != b then 0x04C11DB7#32 else 0#32)

/-- One byte into the CRC-32 register, least significant bit first (R18). -/
def crc32Byte (r : Word32) (x : Byte) : Word32 :=
  crc32Bit (crc32Bit (crc32Bit (crc32Bit (crc32Bit (crc32Bit (crc32Bit (crc32Bit r
    (x.getLsbD 0)) (x.getLsbD 1)) (x.getLsbD 2)) (x.getLsbD 3))
    (x.getLsbD 4)) (x.getLsbD 5)) (x.getLsbD 6)) (x.getLsbD 7)

/-- The bits of a CRC-32 register in reverse order. -/
def reverse32 (r : Word32) : Word32 :=
  (List.range 32).foldl (fun acc i => (acc <<< 1) ^^^ (if r.getLsbD i then 1#32 else 0#32)) 0#32

/-- The CRC-32: preset to all ones, the final register bit-reversed and inverted (R18). -/
def crc32 (bs : List Byte) : Word32 := ~~~ reverse32 (bs.foldl crc32Byte 0xFFFFFFFF#32)

/-! ### Fields, most significant byte first (00_scope.md 4.5) -/

/-- The unsigned field of `size` bytes at offset `off`. -/
def readNat (bs : List Byte) (off size : Nat) : Nat :=
  ((bs.drop off).take size).foldl (fun a b => a * 256 + b.toNat) 0

/-- The signed two's complement field of `size` bytes at offset `off`. -/
def readInt (bs : List Byte) (off size : Nat) : Int :=
  let v := readNat bs off size
  if v < 2 ^ (8 * size - 1) then (v : Int) else (v : Int) - 2 ^ (8 * size)

/-- `v` in `size` bytes. -/
def writeNat : Nat → Nat → List Byte
  | 0, _ => []
  | n + 1, v => BitVec.ofNat 8 (v / 256 ^ n) :: writeNat n v

/-- `v` in `size` bytes, two's complement (log 16). -/
def writeInt (size : Nat) (v : Int) : List Byte := writeNat size (v % 2 ^ (8 * size)).toNat

/-- The field of `size` bytes can carry `v`. -/
def intFits (size : Nat) (v : Int) : Bool :=
  decide (-(2 : Int) ^ (8 * size - 1) ≤ v) && decide (v < (2 : Int) ^ (8 * size - 1))

/-- A point of three 4-byte fields at offset `off`. -/
def readPoint (bs : List Byte) (off : Nat) : Point :=
  ⟨readInt bs off 4, readInt bs (off + 4) 4, readInt bs (off + 8) 4⟩

/-- A point in three 4-byte fields. -/
def writePoint (p : Point) : List Byte := writeInt 4 p.x ++ writeInt 4 p.y ++ writeInt 4 p.z

/-- Three 4-byte fields can carry the point. -/
def pointFits (p : Point) : Bool := intFits 4 p.x && intFits 4 p.y && intFits 4 p.z

/-! ### Codes -/

/-- Role code of a ROLLCALL (R107). -/
def roleCode : Role → Nat
  | .crane => 1
  | .desk => 2
  | .tank => 3

/-- The role of a ROLLCALL's role code (R107). -/
def roleOfCode : Nat → Option Role
  | 1 => some .crane
  | 2 => some .desk
  | 3 => some .tank
  | _ => none

/-- Reset cause code of a ROLLCALL (R107). -/
def causeCode : ResetCause → Nat
  | .powerOn => 1
  | .brownOut => 2
  | .restartLine => 3
  | .panelRestart => 4

/-- The reset cause of a ROLLCALL's code (R107). -/
def causeOfCode : Nat → Option ResetCause
  | 1 => some .powerOn
  | 2 => some .brownOut
  | 3 => some .restartLine
  | 4 => some .panelRestart
  | _ => none

/-- Outcome code of a DONE (R107). -/
def endingCode : Ending → Nat
  | .stowed => 1
  | .restowed => 2
  | .returned => 3
  | .discharged => 4
  | .abandoned => 5
  | .shoreStowed => 6
  | .shoreDischarged => 7

/-- The outcome of a DONE's code (R107). -/
def endingOfCode : Nat → Option Ending
  | 1 => some .stowed
  | 2 => some .restowed
  | 3 => some .returned
  | 4 => some .discharged
  | 5 => some .abandoned
  | 6 => some .shoreStowed
  | 7 => some .shoreDischarged
  | _ => none

/-- State code of a claim part (R110). -/
def phaseCode : Option ClaimPhase → Nat
  | some .announced => 1
  | some .committed => 2
  | none => 0

/-- The state of a claim part's code (R107 check 6). -/
def phaseOfCode : Nat → Option ClaimPhase
  | 1 => some .announced
  | 2 => some .committed
  | _ => none

/-- The source mark of a claim part (R110, R123). -/
def sourceMark : Option ClaimSource → Nat
  | none => 0
  | some src => if src.inBase then 2 else 1

/-- Bit `i` of a byte as a number. -/
def bitOf (b : Bool) (i : Nat) : Nat := if b then 2 ^ i else 0

/-! ### Bodies -/

/-- An aggregate: 36 bytes and 12 for each section (R110). -/
def writeAggregate (a : Aggregate) : List Byte :=
  writeInt 4 a.mass ++ writeInt 8 a.mx ++ writeInt 8 a.my ++ writeInt 8 a.mz ++ writeInt 8 a.fs ++
    a.aft.flatMap (fun w => writeInt 4 w.mass ++ writeInt 8 w.moment)

/-- The aggregate of `k` sections at offset `off` (R110). -/
def readAggregate (bs : List Byte) (off k : Nat) : Aggregate :=
  { mass := readInt bs off 4
    mx := readInt bs (off + 4) 8
    my := readInt bs (off + 12) 8
    mz := readInt bs (off + 20) 8
    fs := readInt bs (off + 28) 8
    aft := (List.range k).map
      (fun j => ⟨readInt bs (off + 36 + 12 * j) 4, readInt bs (off + 40 + 12 * j) 8⟩) }

/-- A claim part: 29 bytes, or 45 with a source (R110). -/
def writeClaim (c : ClaimRecord) : List Byte :=
  writeNat 1 c.number ++ writeNat 1 c.cls ++ writeNat 1 (phaseCode c.phase) ++ writeNat 1 c.item ++
    writeInt 4 c.mass ++ writeNat 2 c.a1 ++ writeNat 2 c.a2 ++ writeInt 4 c.maxRadius ++ writePoint c.worst ++
    writeNat 1 (sourceMark c.source) ++
    (match c.source with
      | none => []
      | some src => writeInt 4 src.mass ++ writePoint src.point)

/-- The claim part at offset `off`, which must reach exactly to offset `stop`, with the ranges of check 6
(R107, R110). -/
def readClaim (bs : List Byte) (source off stop : Nat) : Option ClaimRecord :=
  let number := readNat bs off 1
  let cls := readNat bs (off + 1) 1
  let item := readNat bs (off + 3) 1
  let a1 := readInt bs (off + 8) 2
  let a2 := readInt bs (off + 10) 2
  let mark := readNat bs (off + 28) 1
  let size := if mark = 0 then 29 else 45
  if off + size = stop ∧ 1 ≤ number ∧ cls ≤ 3 ∧ 1 ≤ item ∧ within 0 a1 1023 ∧ within 0 a2 1023 ∧ mark ≤ 2 then
    (phaseOfCode (readNat bs (off + 2) 1)).map fun phase =>
      { station := source, number := number, cls := cls, phase := some phase, item := item
        mass := readInt bs (off + 4) 4, a1 := a1.toNat, a2 := a2.toNat
        maxRadius := readInt bs (off + 12) 4, worst := readPoint bs (off + 16)
        source :=
          if mark = 0 then none
          else some ⟨readInt bs (off + 29) 4, readPoint bs (off + 33), decide (mark = 2)⟩ }
  else none

/-- The body of a frame (R107, R110 to R112). -/
def writeBody : FrameBody → List Byte
  | .rollcall b =>
    writeNat 1 (roleCode b.role) ++ writeNat 4 b.identity.toNat ++ writeNat 1 (causeCode b.cause) ++
      writeNat 1 (bitOf b.startFlag 0 + bitOf b.requestFlag 1) ++ writeInt 2 b.period ++
      writeInt 4 b.envelopeMass ++ writePoint b.envelopePoint
  | .share b =>
    writeNat 1 (bitOf b.quiet 0 + bitOf b.clean 1 + bitOf b.listen 2 + bitOf b.hook.isSome 3 +
        bitOf b.claim.isSome 4) ++
      writeNat 1 b.base.aft.length ++ writeAggregate b.base ++ writeAggregate b.planned ++
      (match b.hook with
        | none => []
        | some h => writeInt 4 h.load ++ writePoint h.point) ++
      (match b.claim with
        | none => []
        | some c => writeClaim c)
  | .claim c => writeClaim c
  | .yield n => writeNat 1 n
  | .done b =>
    writeNat 1 b.claim ++ writeNat 1 (endingCode b.ending) ++
      writeNat 1 (bitOf b.cls.isSome 0 + bitOf b.position.isSome 1) ++ writeNat 1 b.item ++
      writeNat 2 b.label ++ writeInt 4 b.mass ++ writeNat 1 b.comp ++ writeNat 1 (b.cls.getD 0) ++
      (match b.position with
        | none => []
        | some p => writePoint p)
  | .tag b =>
    writeNat 1 b.item ++ writeNat 1 b.cls ++ writeNat 1 (if b.present then 1 else 2) ++ writeInt 4 b.x ++
      writeInt 4 b.y ++ writeNat 1 b.comp

/-- The kind byte of a frame (R107). -/
def kindCode : FrameBody → Nat
  | .rollcall _ => 1
  | .share _ => 2
  | .claim _ => 3
  | .yield _ => 4
  | .done _ => 5
  | .tag _ => 6

/-- A frame as sent: header, body, CRC-16 (R107). -/
def encodeFrame (f : Frame) : List Byte :=
  let body := writeBody f.body
  let head := writeNat 1 (kindCode f.body) ++ writeNat 1 f.source ++ writeNat 2 body.length ++ body
  head ++ writeNat 2 (crc16 head).toNat

/-- A ROLLCALL body of 25 bytes, offsets from the first byte of the frame (R107). -/
def readRollcall (bs : List Byte) (l : Nat) : Option FrameBody :=
  let flags := readNat bs 10 1
  if l = 25 ∧ flags < 4 then
    match roleOfCode (readNat bs 4 1), causeOfCode (readNat bs 9 1) with
    | some role, some cause =>
      some (.rollcall
        { role := role, identity := BitVec.ofNat 32 (readNat bs 5 4), cause := cause
          startFlag := flags.testBit 0, requestFlag := flags.testBit 1, period := readInt bs 11 2
          envelopeMass := readInt bs 13 4, envelopePoint := readPoint bs 17 })
    | _, _ => none
  else none

/-- A SHARE body, laid out as R110 gives. A section count above 8, which R110's layout does not have, fails the check
(DESIGN CHOICE, log 23). -/
def readShare (bs : List Byte) (source l : Nat) : Option FrameBody :=
  let flags := readNat bs 4 1
  let k := readNat bs 5 1
  let hookAt := 78 + 24 * k
  let claimAt := hookAt + (if flags.testBit 3 then 16 else 0)
  if flags < 32 ∧ k ≤ 8 ∧ claimAt ≤ 4 + l then
    let body (claim : Option ClaimRecord) : FrameBody := .share
      { quiet := flags.testBit 0, clean := flags.testBit 1, listen := flags.testBit 2
        base := readAggregate bs 6 k, planned := readAggregate bs (42 + 12 * k) k
        hook :=
          if flags.testBit 3 then some ⟨readInt bs hookAt 4, readPoint bs (hookAt + 4)⟩ else none
        claim := claim }
    if flags.testBit 4 then (readClaim bs source claimAt (4 + l)).map (fun c => body (some c))
    else if claimAt = 4 + l then some (body none)
    else none
  else none

/-- A DONE body of 12 bytes, or 24 with a position (R107). Where the class mark is clear the item has no class, whatever
the class byte holds (DESIGN CHOICE, log 51). -/
def readDone (bs : List Byte) (l : Nat) : Option FrameBody :=
  let marks := readNat bs 6 1
  let item := readNat bs 7 1
  let cls := readNat bs 15 1
  if marks < 4 ∧ l = (if marks.testBit 1 then 24 else 12) ∧ 1 ≤ item then
    (endingOfCode (readNat bs 5 1)).map fun ending => .done
      { claim := readNat bs 4 1, ending := ending, item := item, label := readNat bs 8 2
        mass := readInt bs 10 4, comp := readNat bs 14 1
        cls := if marks.testBit 0 ∧ cls ≠ 0 then some cls else none
        position := if marks.testBit 1 then some (readPoint bs 16) else none }
  else none

/-- A TAG body of 12 bytes (R107, R112). -/
def readTag (bs : List Byte) (l : Nat) : Option FrameBody :=
  let mark := readNat bs 6 1
  if l = 12 ∧ (mark = 1 ∨ mark = 2) then
    some (.tag
      { item := readNat bs 4 1, cls := readNat bs 5 1, present := decide (mark = 1), x := readInt bs 7 4
        y := readInt bs 11 4, comp := readNat bs 15 1 })
  else none

/-- The body of the kind given by the first byte (R107 checks 4 to 6). -/
def readBody (bs : List Byte) (source l : Nat) : Option FrameBody :=
  match readNat bs 0 1 with
  | 1 => readRollcall bs l
  | 2 => readShare bs source l
  | 3 => (readClaim bs source 4 (4 + l)).map .claim
  | 4 => if l = 1 then some (.yield (readNat bs 4 1)) else none
  | 5 => readDone bs l
  | 6 => readTag bs l
  | _ => none

/-- The frame check (R107): the frame that bytes ended by the end of a frame carry, none where any of its
conditions fails. -/
def frameOf (bs : List Byte) : Option Frame :=
  let l := readNat bs 2 2
  let source := readNat bs 1 1
  if 6 ≤ bs.length ∧ bs.length = 4 + l + 2 ∧ bs.length ≤ 400 ∧
      readNat bs (4 + l) 2 = (crc16 (bs.take (4 + l))).toNat ∧ 1 ≤ source ∧ source ≤ 15 then
    (readBody bs source l).map (Frame.mk source)
  else none

/-- The line fell idle before the length declared in the header had been received (R107 check 1). -/
def cutShort (bs : List Byte) : Bool :=
  !bs.isEmpty && (decide (bs.length < 4) || decide (bs.length < 4 + readNat bs 2 2 + 2))

/-! ### What a frame's fields can carry -/

/-- The fields of an aggregate of `k` sections fit its layout. -/
def aggregateFits (k : Nat) (a : Aggregate) : Bool :=
  intFits 4 a.mass && intFits 8 a.mx && intFits 8 a.my && intFits 8 a.mz && intFits 8 a.fs &&
    decide (a.aft.length = k) && a.aft.all (fun w => intFits 4 w.mass && intFits 8 w.moment)

/-- The fields of a claim record fit its layout and check 6, as a record of `source`. -/
def claimFits (source : Nat) (c : ClaimRecord) : Bool :=
  decide (c.station = source) && decide (1 ≤ c.number) && decide (c.number ≤ 255) && decide (c.cls ≤ 3) &&
    c.phase.isSome && decide (1 ≤ c.item) && decide (c.item ≤ 255) && intFits 4 c.mass &&
    decide (c.a1 ≤ 1023) && decide (c.a2 ≤ 1023) && intFits 4 c.maxRadius && pointFits c.worst &&
    (match c.source with
      | none => true
      | some src => intFits 4 src.mass && pointFits src.point)

/-- A well-formed frame: every field at a value its encoding admits (R107, R110 to R112). -/
def frameFits (f : Frame) : Bool :=
  decide (1 ≤ f.source) && decide (f.source ≤ 15) &&
  match f.body with
  | .rollcall b => intFits 2 b.period && intFits 4 b.envelopeMass && pointFits b.envelopePoint
  | .share b =>
    decide (b.base.aft.length ≤ 8) && aggregateFits b.base.aft.length b.base &&
      aggregateFits b.base.aft.length b.planned &&
      (match b.hook with
        | none => true
        | some h => intFits 4 h.load && pointFits h.point) &&
      (match b.claim with
        | none => true
        | some c => claimFits f.source c)
  | .claim c => claimFits f.source c
  | .yield n => decide (n ≤ 255)
  | .done b =>
    decide (b.claim ≤ 255) && decide (1 ≤ b.item) && decide (b.item ≤ 255) && decide (b.label ≤ 65535) &&
      intFits 4 b.mass && decide (b.comp ≤ 255) &&
      (match b.cls with
        | none => true
        | some c => decide (1 ≤ c) && decide (c ≤ 255)) &&
      (match b.position with
        | none => true
        | some p => pointFits p)
  | .tag b =>
    decide (b.item ≤ 255) && decide (b.cls ≤ 255) && intFits 4 b.x && intFits 4 b.y && decide (b.comp ≤ 255)

/-! ### Sensor records -/

/-- A HOOK record as sent (R145). -/
def encodeHook (r : HookRecord) : List Byte :=
  let head := writeNat 1 1 ++ writeNat 1 (bitOf r.heel.isSome 0) ++ writeInt 4 r.load ++ writeNat 2 r.slew ++
    writeInt 4 r.radius ++ writeInt 4 r.height ++
    (match r.heel with
      | none => []
      | some h => writeInt 2 h)
  head ++ writeNat 2 (crc16 head).toNat

/-- The HOOK record that bytes carry, none where a check of R145 fails. -/
def hookRecordOf (bs : List Byte) : Option HookRecord :=
  let mark := readNat bs 1 1
  let size := if mark = 1 then 18 else 16
  let load := readInt bs 2 4
  let radius := readInt bs 8 4
  let height := readInt bs 12 4
  if mark ≤ 1 ∧ bs.length = size + 2 ∧ readNat bs size 2 = (crc16 (bs.take size)).toNat ∧
      readNat bs 0 1 = 1 ∧ within (-100000) load 1000000 ∧ within 0 radius 1000000 ∧
      within (-100000) height 1000000 then
    some
      { load := load, slew := readNat bs 6 2, radius := radius, height := height
        heel := if mark = 1 then some (readInt bs 16 2) else none }
  else none

/-- A HOOK record's fields lie in their ranges as sent (R145). -/
def hookFits (r : HookRecord) : Bool :=
  within (-100000) r.load 1000000 && decide (r.slew ≤ 65535) && within 0 r.radius 1000000 &&
    within (-100000) r.height 1000000 &&
    (match r.heel with
      | none => true
      | some h => intFits 2 h)

/-- A LEVELS record as sent (R165). -/
def encodeLevels (levels : List Int) : List Byte :=
  let head := writeNat 1 2 ++ writeNat 1 levels.length ++ levels.flatMap (writeInt 4)
  head ++ writeNat 2 (crc16 head).toNat

/-- The levels that bytes carry for a station with `n` own tanks, none where a check of R165 fails. -/
def levelsOf (n : Nat) (bs : List Byte) : Option (List Int) :=
  let count := readNat bs 1 1
  let levels := (List.range count).map (fun j => readInt bs (2 + 4 * j) 4)
  if readNat bs 0 1 = 2 ∧ count = n ∧ 1 ≤ count ∧ count ≤ 8 ∧ bs.length = 4 + 4 * count ∧
      readNat bs (2 + 4 * count) 2 = (crc16 (bs.take (2 + 4 * count))).toNat ∧
      levels.all (fun v => within (-100000) v 1000000) then
    some levels
  else none

/-! ### Panel records -/

/-- The record check of a request record (R186). -/
def panelRecordOk (bs : List Byte) : Bool :=
  let l := readNat bs 4 2
  decide (8 ≤ bs.length) && decide (bs.length = 6 + l + 2) && decide (l ≤ 4096) &&
    decide (readNat bs 0 1 = 1) && within 1 (readNat bs 1 1) 26 &&
    decide (readNat bs (6 + l) 2 = (crc16 (bs.take (6 + l))).toNat)

/-! ### Retained memory (R194; the layout is log 8) -/

/-- An optional part: a presence mark, and the part where it is present (00_scope.md 4.6). -/
def writeOption {α : Type} (write : α → List Byte) : Option α → List Byte
  | none => writeNat 1 0
  | some v => writeNat 1 1 ++ write v

/-- The code of an item state in retained memory. -/
def itemStateCode : ItemState → Nat
  | .plannedIn => 1
  | .stowed => 2
  | .plannedOut => 3
  | .slung => 4
  | .landed => 5
  | .unresolved => 6

/-- The code of a direction in retained memory. -/
def directionCode : Direction → Nat
  | .inbound => 1
  | .outbound => 2

/-- An item record in retained memory (R22). -/
def itemBytes (i : Item) : List Byte :=
  writeNat 1 i.number ++ writeNat 2 i.label ++ writeInt 4 i.mass ++ writePoint i.planned ++ writeNat 1 i.comp ++
    writeInt 4 i.length ++ writeInt 4 i.breadth ++ writeOption (writeNat 1) i.cls ++
    writeNat 1 (itemStateCode i.state) ++ writeOption (fun d => writeNat 1 (directionCode d)) i.direction ++
    writeOption writePoint i.stowed ++
    writeOption (fun l => writePoint l.point ++ writeNat 1 (bitOf l.aboard 0)) i.landing

/-- A journal record in retained memory (R181). -/
def journalBytes (r : JournalRecord) : List Byte :=
  writeNat 1 r.station ++ writeNat 1 r.claim ++ writeNat 1 r.item ++ writeNat 2 r.label ++
    writeNat 1 (endingCode r.ending) ++ writeInt 4 r.mass ++ writeOption writePoint r.position ++ writeNat 1 r.comp ++
    writeOption (writeNat 1) r.cls ++ writeInt 4 r.time

/-- A list of records in retained memory: its length, then the records. -/
def listBytes {α : Type} (write : α → List Byte) (l : List α) : List Byte := writeNat 1 l.length ++ l.flatMap write

/-- The contents of retained memory as bytes: the item list, both banks and the bank role. -/
def retainedBytes (c : RetainedContents) : List Byte :=
  listBytes itemBytes c.items ++ listBytes journalBytes c.journal.bankA ++ listBytes journalBytes c.journal.bankB ++
    writeNat 1 (bitOf c.journal.writeA 0)

/-- The retained check of contents: their CRC-32 (R18, R194). -/
def retainedCheck (c : RetainedContents) : Word32 := crc32 (retainedBytes c)

/-- Retained memory once a write is complete: the contents and their check replaced as one whole (R194). -/
def retainedWhole (c : RetainedContents) : RetainedMemory := ⟨c, retainedCheck c, none⟩

/-- The retained check as computed matches the stored one (R194). -/
def retainedPasses (m : RetainedMemory) : Bool := decide (m.check = retainedCheck m.contents)

end Sys2Proof.Machine
end

