-- ==== Sys2Proof/Syntax.lean ====
section
/-! DEFINITION. The commands of the station: one constructor per row of spec/opcode_table.json. Each carries
`dt`, the milliseconds that have passed on the own timer since the step before it (log 1). A request carries its
sequence number and its arguments; `none` stands for a body that does not fit the arguments of the request or
lacks a required one (R186, log 7). A request without arguments carries a BareRequest. A receiving command carries the
bytes received (log 6). -/

namespace Sys2Proof

open Machine

/-- A request record without arguments: its sequence number, and whether its body fits, that is, whether it is empty
(R186, R188; log 7). -/
structure BareRequest where
  seq : Byte
  fits : Bool
  deriving DecidableEq, Repr

/-- The fields ADD ITEM carries, and AMEND ITEM beside its item number (R28, R29). -/
structure ItemArgs where
  label : Nat
  mass : Int
  pos : Point
  comp : Nat
  length : Int
  breadth : Int
  cls : Option Nat
  deriving DecidableEq, Repr

/-- The arguments of AMEND ITEM (R29). -/
structure AmendArgs where
  item : Nat
  fields : ItemArgs
  deriving DecidableEq, Repr

/-- The arguments of STOW DIRECT: an item and, optionally, a position with a compartment id (R37). -/
structure StowArgs where
  item : Nat
  pos : Option Point
  comp : Option Nat
  deriving DecidableEq, Repr

/-- The arguments of RESOLVE ITEM (R39). -/
structure ResolveArgs where
  item : Nat
  choice : ResolveChoice
  deriving DecidableEq, Repr

/-- The fields of an ADD entry, carried by TRIAL ADD (R44, R45). -/
structure TrialAddArgs where
  mass : Int
  pos : Point
  comp : Nat
  length : Int
  breadth : Int
  cls : Option Nat
  deriving DecidableEq, Repr

/-- The arguments of TRIAL MOVE (R46). -/
structure TrialMoveArgs where
  item : Nat
  pos : Point
  comp : Nat
  deriving DecidableEq, Repr

/-- The arguments of LIFT REQUEST (R127). -/
structure LiftArgs where
  item : Nat
  cls : Nat
  a1 : Nat
  a2 : Nat
  maxRadius : Int
  deriving DecidableEq, Repr

/-- The arguments of SET DOWN, each optional (R34). -/
structure SetDownArgs where
  item : Option Nat
  pos : Option Point
  comp : Option Nat
  deriving DecidableEq, Repr

/-- The commands: one constructor per row of the table of operations and events, in its order. -/
inductive Instr
  /-- POWER_ON (R193). -/
  | powerOn (dt : Nat)
  /-- BROWN_OUT (R193). -/
  | brownOut (dt : Nat)
  /-- SUPPLY_RECOVER (R193). -/
  | supplyRecover (dt : Nat)
  /-- SUPPLY_OFF (R193). -/
  | supplyOff (dt : Nat)
  /-- RESTART_LINE (R193). -/
  | restartLine (dt : Nat)
  /-- RESTART_LINE_RELEASE (R193). -/
  | restartLineRelease (dt : Nat)
  /-- RESTART_RESPONSE_SENT (R193). -/
  | restartResponseSent (dt : Nat)
  /-- MEMORY_READ: the part answered (R3). -/
  | memoryRead (dt : Nat) (part : MemoryPart)
  /-- MEMORY_READ_TIMEOUT (R3). -/
  | memoryReadTimeout (dt : Nat)
  /-- LISTEN_TIMEOUT (R191). -/
  | listenTimeout (dt : Nat)
  /-- QUIET_FILTER_EXPIRY (R120). -/
  | quietFilterExpiry (dt : Nat)
  /-- PANEL_RECORD_INVALID: the record received (R186). -/
  | panelRecordInvalid (dt : Nat) (bytes : List Byte)
  /-- PANEL_FRAGMENT_TIMEOUT: what had been received (R186). -/
  | panelFragmentTimeout (dt : Nat) (bytes : List Byte)
  /-- ADD_ITEM (R28). -/
  | addItem (dt : Nat) (seq : Byte) (args : Option ItemArgs)
  /-- AMEND_ITEM (R29). -/
  | amendItem (dt : Nat) (seq : Byte) (args : Option AmendArgs)
  /-- MARK_OUT: an item number (R30). -/
  | markOut (dt : Nat) (seq : Byte) (item : Option Nat)
  /-- CANCEL_ITEM: an item number (R30). -/
  | cancelItem (dt : Nat) (seq : Byte) (item : Option Nat)
  /-- STOW_DIRECT (R37). -/
  | stowDirect (dt : Nat) (seq : Byte) (args : Option StowArgs)
  /-- DISCHARGE_DIRECT: an item number (R37). -/
  | dischargeDirect (dt : Nat) (seq : Byte) (item : Option Nat)
  /-- RESOLVE_ITEM (R39). -/
  | resolveItem (dt : Nat) (seq : Byte) (args : Option ResolveArgs)
  /-- LIST_ITEMS: a starting index (R42). -/
  | listItems (dt : Nat) (seq : Byte) (index : Option Nat)
  /-- TRIAL_ADD (R45). -/
  | trialAdd (dt : Nat) (seq : Byte) (args : Option TrialAddArgs)
  /-- TRIAL_MOVE (R46). -/
  | trialMove (dt : Nat) (seq : Byte) (args : Option TrialMoveArgs)
  /-- TRIAL_DROP (R49). -/
  | trialDrop (dt : Nat) (req : BareRequest)
  /-- TRIAL_CLEAR (R49). -/
  | trialClear (dt : Nat) (req : BareRequest)
  /-- TRIAL_ADOPT (R50, R51). -/
  | trialAdopt (dt : Nat) (req : BareRequest)
  /-- LIFT_REQUEST (R127). -/
  | liftRequest (dt : Nat) (seq : Byte) (args : Option LiftArgs)
  /-- LIFT_ABORT (R137). -/
  | liftAbort (dt : Nat) (req : BareRequest)
  /-- SET_DOWN (R34, R35). -/
  | setDown (dt : Nat) (seq : Byte) (args : Option SetDownArgs)
  /-- READ_CONDITION: a flavour (R82). -/
  | readCondition (dt : Nat) (seq : Byte) (flavour : Option Flavour)
  /-- READ_VIEW (R103). -/
  | readView (dt : Nat) (req : BareRequest)
  /-- READ_STATUS (R189). -/
  | readStatus (dt : Nat) (req : BareRequest)
  /-- READ_EVENTS (R178). -/
  | readEvents (dt : Nat) (req : BareRequest)
  /-- SET_MASK: kind codes (R179). -/
  | setMask (dt : Nat) (seq : Byte) (codes : Option (List Nat))
  /-- READ_JOURNAL: a starting index (R185). -/
  | readJournal (dt : Nat) (seq : Byte) (index : Option Nat)
  /-- SWITCH_BANK (R184). -/
  | switchBank (dt : Nat) (req : BareRequest)
  /-- PUMP_MANUAL: a direction (R171). -/
  | pumpManual (dt : Nat) (seq : Byte) (direction : Option Demand)
  /-- PUMP_AUTO: a mode, true for ON (R170). -/
  | pumpAuto (dt : Nat) (seq : Byte) (mode : Option Bool)
  /-- RESTART (R193). -/
  | restart (dt : Nat) (req : BareRequest)
  /-- RETAINED_WRITE_COMPLETE (R38, R187). -/
  | retainedWriteComplete (dt : Nat)
  /-- ROLLCALL: the frame's bytes (R88, R107). -/
  | rollcall (dt : Nat) (bytes : List Byte)
  /-- SHARE: the frame's bytes (R87, R110). -/
  | share (dt : Nat) (bytes : List Byte)
  /-- CLAIM: the frame's bytes (R140). -/
  | claim (dt : Nat) (bytes : List Byte)
  /-- YIELD: the frame's bytes (R142). -/
  | yield (dt : Nat) (bytes : List Byte)
  /-- DONE: the frame's bytes (R142, R183). -/
  | done (dt : Nat) (bytes : List Byte)
  /-- TAG: the frame's bytes (R26). -/
  | tag (dt : Nat) (bytes : List Byte)
  /-- FRAME_CHECK_FAIL: the frame's bytes (R107). -/
  | frameCheckFail (dt : Nat) (bytes : List Byte)
  /-- LINE_IDLE_TIMEOUT: the bytes received before the line fell idle (R107). -/
  | lineIdleTimeout (dt : Nat) (bytes : List Byte)
  /-- FRAGMENT_RECEIVED: the bytes received before the break (R106). -/
  | fragmentReceived (dt : Nat) (bytes : List Byte)
  /-- TX_ATTEMPT_START (R106, R113). -/
  | txAttemptStart (dt : Nat)
  /-- TX_COLLISION (R106). -/
  | txCollision (dt : Nat)
  /-- TX_BACKOFF_EXPIRY (R106). -/
  | txBackoffExpiry (dt : Nat)
  /-- TX_COMPLETE (R106). -/
  | txComplete (dt : Nat)
  /-- SHARE_INTERVAL_EXPIRY (R114). -/
  | shareIntervalExpiry (dt : Nat)
  /-- SHARE_SPACING_EXPIRY (R116). -/
  | shareSpacingExpiry (dt : Nat)
  /-- ROLLCALL_ANSWER_DUE (R117). -/
  | rollcallAnswerDue (dt : Nat)
  /-- TAG_ROTATION (R118). -/
  | tagRotation (dt : Nat)
  /-- PEER_STALE: the peer's station number (R92). -/
  | peerStale (dt : Nat) (station : Nat)
  /-- PEER_LOST: the peer's station number (R92). -/
  | peerLost (dt : Nat) (station : Nat)
  /-- FRAME_CHECK_WINDOW_CLOSE (R98). -/
  | frameCheckWindowClose (dt : Nat)
  /-- HEEL_FILTER_EXPIRY (R100). -/
  | heelFilterExpiry (dt : Nat)
  /-- SOLVER_INTERVAL_EXPIRY (R56). -/
  | solverIntervalExpiry (dt : Nat)
  /-- PASS_START (R56, R57). -/
  | passStart (dt : Nat)
  /-- PUBLISH (R59). -/
  | publish (dt : Nat)
  /-- BACKOFF_EXPIRY (R132). -/
  | backoffExpiry (dt : Nat)
  /-- LIFT_OVERDUE (R134). -/
  | liftOverdue (dt : Nat)
  /-- HOOK_RECORD: the record's bytes (R145, R148). -/
  | hookRecord (dt : Nat) (bytes : List Byte)
  /-- LEVELS_RECORD: the record's bytes (R165, R167). -/
  | levelsRecord (dt : Nat) (bytes : List Byte)
  /-- SENSOR_RECORD_DISCARD: the record's bytes (R145, R165). -/
  | sensorRecordDiscard (dt : Nat) (bytes : List Byte)
  /-- SENSOR_HOLDING (R147). -/
  | sensorHolding (dt : Nat)
  /-- SENSOR_LOST (R147, R175). -/
  | sensorLost (dt : Nat)
  /-- DEAD_INTERVAL_EXPIRY (R173). -/
  | deadIntervalExpiry (dt : Nat)
  /-- LINE_LEVEL_CHANGE: line 1..12 and its raw level, true at its on level (R160). -/
  | lineLevelChange (dt : Nat) (line : Nat) (level : Bool)
  /-- INPUT_FILTER_EXPIRY: line 1..12 (R160). -/
  | inputFilterExpiry (dt : Nat) (line : Nat)
  /-- MAP_SETTLE_EXPIRY (R27). -/
  | mapSettleExpiry (dt : Nat)
  deriving DecidableEq, Repr

end Sys2Proof
end

