-- ==== Sys2Proof/Machine/State.lean ====
section
/-! DEFINITION. The whole state of one station as plain data, the reasons a step can stop, and the state after
reset. The value every field takes after a reset stands beside its rule in INVENTORY.md. -/

namespace Sys2Proof.Machine

/-- Faults. No rule of the manual stops the station for good, so no command raises one: FAULT and HALT are
station states. The one constructor keeps the type inhabited. -/
inductive Fault
  /-- Raised by no command; safe. -/
  | unreached
  deriving DecidableEq, Repr

/-- Refusals. A request the station refuses is answered with a result code and is a next state. -/
inductive Refusal
  /-- Raised by `exec` for a command without a meaning; safe. No arm of this model raises it. -/
  | notModelled (mnemonic : String)
  deriving DecidableEq, Repr

/-- The station: the queue of commands that wait, and every block's state. -/
structure State where
  pending : List Instr
  station : Station
  power : Power
  table : TableStore
  stowage : Stowage
  trial : List TrialEntry
  solver : Solver
  view : View
  link : Link
  claim : ClaimUnit
  sensor : Sensor
  crane : Crane
  lines : Lines
  pump : Pump
  report : Report
  journal : Journal
  memory : RetainedMemory
  panel : Panel
  deriving DecidableEq, Repr

/-- What a meaning answers. -/
abbrev Answer := Host.Outcome State Fault Refusal

/-! ### Block updates

The operations change State through these, so that one lemma per field and update
(Sys2Proof/Laws/State.lean) is all a frame proof needs. -/

/-- `s` with its pending replaced. -/
def State.setPending (s : State) (v : List Instr) : State :=
  ⟨v, s.station, s.power, s.table, s.stowage, s.trial, s.solver, s.view, s.link, s.claim, s.sensor, s.crane, s.lines, s.pump, s.report, s.journal, s.memory, s.panel⟩

/-- `s` with its station replaced. -/
def State.setStation (s : State) (v : Station) : State :=
  ⟨s.pending, v, s.power, s.table, s.stowage, s.trial, s.solver, s.view, s.link, s.claim, s.sensor, s.crane, s.lines, s.pump, s.report, s.journal, s.memory, s.panel⟩

/-- `s` with its power replaced. -/
def State.setPower (s : State) (v : Power) : State :=
  ⟨s.pending, s.station, v, s.table, s.stowage, s.trial, s.solver, s.view, s.link, s.claim, s.sensor, s.crane, s.lines, s.pump, s.report, s.journal, s.memory, s.panel⟩

/-- `s` with its table replaced. -/
def State.setTable (s : State) (v : TableStore) : State :=
  ⟨s.pending, s.station, s.power, v, s.stowage, s.trial, s.solver, s.view, s.link, s.claim, s.sensor, s.crane, s.lines, s.pump, s.report, s.journal, s.memory, s.panel⟩

/-- `s` with its stowage replaced. -/
def State.setStowage (s : State) (v : Stowage) : State :=
  ⟨s.pending, s.station, s.power, s.table, v, s.trial, s.solver, s.view, s.link, s.claim, s.sensor, s.crane, s.lines, s.pump, s.report, s.journal, s.memory, s.panel⟩

/-- `s` with its trial replaced. -/
def State.setTrial (s : State) (v : List TrialEntry) : State :=
  ⟨s.pending, s.station, s.power, s.table, s.stowage, v, s.solver, s.view, s.link, s.claim, s.sensor, s.crane, s.lines, s.pump, s.report, s.journal, s.memory, s.panel⟩

/-- `s` with its solver replaced. -/
def State.setSolver (s : State) (v : Solver) : State :=
  ⟨s.pending, s.station, s.power, s.table, s.stowage, s.trial, v, s.view, s.link, s.claim, s.sensor, s.crane, s.lines, s.pump, s.report, s.journal, s.memory, s.panel⟩

/-- `s` with its view replaced. -/
def State.setView (s : State) (v : View) : State :=
  ⟨s.pending, s.station, s.power, s.table, s.stowage, s.trial, s.solver, v, s.link, s.claim, s.sensor, s.crane, s.lines, s.pump, s.report, s.journal, s.memory, s.panel⟩

/-- `s` with its link replaced. -/
def State.setLink (s : State) (v : Link) : State :=
  ⟨s.pending, s.station, s.power, s.table, s.stowage, s.trial, s.solver, s.view, v, s.claim, s.sensor, s.crane, s.lines, s.pump, s.report, s.journal, s.memory, s.panel⟩

/-- `s` with its claim replaced. -/
def State.setClaim (s : State) (v : ClaimUnit) : State :=
  ⟨s.pending, s.station, s.power, s.table, s.stowage, s.trial, s.solver, s.view, s.link, v, s.sensor, s.crane, s.lines, s.pump, s.report, s.journal, s.memory, s.panel⟩

/-- `s` with its sensor replaced. -/
def State.setSensor (s : State) (v : Sensor) : State :=
  ⟨s.pending, s.station, s.power, s.table, s.stowage, s.trial, s.solver, s.view, s.link, s.claim, v, s.crane, s.lines, s.pump, s.report, s.journal, s.memory, s.panel⟩

/-- `s` with its crane replaced. -/
def State.setCrane (s : State) (v : Crane) : State :=
  ⟨s.pending, s.station, s.power, s.table, s.stowage, s.trial, s.solver, s.view, s.link, s.claim, s.sensor, v, s.lines, s.pump, s.report, s.journal, s.memory, s.panel⟩

/-- `s` with its lines replaced. -/
def State.setLines (s : State) (v : Lines) : State :=
  ⟨s.pending, s.station, s.power, s.table, s.stowage, s.trial, s.solver, s.view, s.link, s.claim, s.sensor, s.crane, v, s.pump, s.report, s.journal, s.memory, s.panel⟩

/-- `s` with its pump replaced. -/
def State.setPump (s : State) (v : Pump) : State :=
  ⟨s.pending, s.station, s.power, s.table, s.stowage, s.trial, s.solver, s.view, s.link, s.claim, s.sensor, s.crane, s.lines, v, s.report, s.journal, s.memory, s.panel⟩

/-- `s` with its report replaced. -/
def State.setReport (s : State) (v : Report) : State :=
  ⟨s.pending, s.station, s.power, s.table, s.stowage, s.trial, s.solver, s.view, s.link, s.claim, s.sensor, s.crane, s.lines, s.pump, v, s.journal, s.memory, s.panel⟩

/-- `s` with its journal replaced. -/
def State.setJournal (s : State) (v : Journal) : State :=
  ⟨s.pending, s.station, s.power, s.table, s.stowage, s.trial, s.solver, s.view, s.link, s.claim, s.sensor, s.crane, s.lines, s.pump, s.report, v, s.memory, s.panel⟩

/-- `s` with its memory replaced. -/
def State.setMemory (s : State) (v : RetainedMemory) : State :=
  ⟨s.pending, s.station, s.power, s.table, s.stowage, s.trial, s.solver, s.view, s.link, s.claim, s.sensor, s.crane, s.lines, s.pump, s.report, s.journal, v, s.panel⟩

/-- `s` with its panel replaced. -/
def State.setPanel (s : State) (v : Panel) : State :=
  ⟨s.pending, s.station, s.power, s.table, s.stowage, s.trial, s.solver, s.view, s.link, s.claim, s.sensor, s.crane, s.lines, s.pump, s.report, s.journal, s.memory, v⟩

/-! ### Values after a reset -/

/-- The table store after a reset (R2, R19). -/
def TableStore.cleared : TableStore :=
  { contents := .empty, header := none, image := none, imageCrc := none, tableCheck := none
    stationSection := none, sectionCrc := none, sectionCheck := none, attempts := 0, readAt := 0
    fault := ⟨.none, 0⟩, identity := none, number := none }

/-- A condition record in the NOT_YET status (R54, R82). -/
def CondRecord.notYet (f : Flavour) : CondRecord := ⟨f, none⟩

/-- The condition solver after a reset (R54). -/
def Solver.cleared : Solver :=
  { pass := none, dirty := false, passNumber := 0, lastStart := none
    actual := .notYet .actual, lift := .notYet .lift, final := .notYet .final, probe := .notYet .probe
    prevActual := .notYet, prevLift := .notYet }

/-- The peer view after a reset (R85, R97, R98, R100). -/
def View.cleared : View :=
  { entries := [], failureAt := none, windowOpen := false, clean := false, agreement := true
    heelFilter := none }

/-- The link controller after a reset (R105, R109); the model's own draw count and output log are kept. -/
def Link.cleared (draws : Nat) (out : List (List Byte)) : Link :=
  { queue := [], placeholder := false, wakeCause := false, tx := none, shareStart := none, spacing := false, shareRef := none
    startFlag := true, answerAt := none, rotationAt := none, rotation := none, tagged := []
    draws := draws, out := out }

/-- The claim unit after a reset (R125). -/
def ClaimUnit.cleared : ClaimUnit :=
  { state := .none, nextNumber := 1, record := none, withdrawals := 0, holdExpiry := none
    backoffExpiry := none, commitTime := none, overdue := false, conflict := false, pending := false }

/-- The sensor port after a reset (R145, R147, R166). -/
def Sensor.cleared : Sensor := { port := .lost, lastRecord := none, lostReported := false, discarded := 0 }

/-- No permit active. -/
def Permits.inactive : Permits := ⟨false, false, false, false⟩

/-- The crane supervisor after a reset (R147, R149 to R154). -/
def Crane.cleared : Crane :=
  { held := none, heel := none, lastLoaded := none, carrying := false, unclaimed := false, overload := false
    verdict := .notYet, permits := .inactive }

/-- The pump controller after a reset (R166, R168); automatic mode until the store is LOADED is log 13. -/
def Pump.cleared : Pump :=
  { auto := false, autoDemand := .none, manualDemand := .none, suspended := true, ps := .inactive
    sp := .inactive, offPs := 0, offSp := 0, duePs := none, dueSp := none, levels := none }

/-- The report unit after a reset (R177, R179, R180). -/
def Report.cleared : Report :=
  { latched := [], mask := [.wake], actual := .notYet, lift := .notYet, alarm := false }

/-- Both banks empty and A the write bank (R181, R194). -/
def Journal.cleared : Journal := ⟨[], [], true⟩

/-- Right after the first POWER_ON reset, with blank retained memory, which fails its check and is written
afresh (R193, R194; log 11). Raw line levels are off (log 12). -/
def State.reset : State :=
  { pending := []
    station := { state := .start, timer := 0, since := 0, cause := .powerOn, retainedPassed := false
                 listenAt := none, quietStart := none, quietBefore := none, frozenAt := none }
    power := ⟨false, false, false, none, false⟩
    table := .cleared
    stowage := ⟨[], [], false, none⟩
    trial := []
    solver := .cleared
    view := .cleared
    link := .cleared 0 []
    claim := .cleared
    sensor := .cleared
    crane := .cleared
    lines := ⟨false, List.replicate 12 ⟨false, 0, false⟩, none⟩
    pump := .cleared
    report := .cleared
    journal := .cleared
    memory := retainedWhole ⟨[], .cleared⟩
    panel := ⟨none, []⟩ }

end Sys2Proof.Machine
end

