-- ==== Sys2Proof/Machine/Tables.lean ====
section
/-! DEFINITION. The table store: the checks of validation in their order (R3 to R15, R18, R19), and what the other
blocks read from a LOADED store (R20). -/

namespace Sys2Proof.Machine

/-! ### Reading in parts (R3) -/

/-- The image has the lengths the header declares (R3; log 5). -/
def imageFitsHeader (h : Header) (t : TableImage) : Bool :=
  decide (t.rows.length = h.rows) && t.rows.all (fun r => decide (r.pairs.length = h.sections)) &&
    decide (t.lightship.aft.length = h.sections) && decide (t.sections.length = h.sections) &&
    decide (t.compartments.length = h.compartments) && decide (t.segregation.matrix.length = 9) &&
    t.segregation.matrix.all (fun r => decide (r.length = 9))

/-- The station section has its four filter entries and twelve lines (R11, R14). -/
def sectionFits (t : StationSection) : Bool :=
  decide (t.filter.length = 4) && decide (t.lines.length = 12)

/-! ### The checks of validation -/

/-- FORMAT, with its detail (R3, R19). -/
def formatFault (h : Header) : Option Nat :=
  firstFail 1 [decide (h.format = 4), decide (2 ≤ h.rows) && decide (h.rows ≤ 128), decide (h.sections ≤ 8),
    decide (1 ≤ h.compartments) && decide (h.compartments ≤ 32)]

/-- PARTICULARS, with the field's position (R4). -/
def particularsFault (p : Particulars) : Option Nat :=
  firstFail 1 [within 1 p.lpp 250000, within 1 p.halfBreadth 30000, within 1 p.maxDraft 30000,
    within 0 p.minAftDraft (p.maxDraft - 1), within (-20000) p.trimMin 20000, within p.trimMin p.trimMax 20000,
    within 1 p.gmMin 10000, within 1 p.staticHeel 999, within 1 p.liftHeel 999, within 0 p.degradedGm 10000,
    within 0 p.degradedHeel (min p.staticHeel p.liftHeel - 1), within 0 p.gmBand 10000,
    within 0 p.staticHeelBand p.staticHeel, within 0 p.liftHeelBand p.liftHeel, within 0 p.trimBand 20000,
    within 0 p.maxDraftBand p.maxDraft, within 0 p.minAftBand 10000]

/-- No value is smaller than the one before it. -/
def nondecreasing : List Int → Bool
  | a :: b :: rest => decide (a ≤ b) && nondecreasing (b :: rest)
  | _ => true

/-- A hull row's own fields, and D and T above those of the row before it (R5). -/
def rowOk (lpp : Int) (sections : List CheckSection) (prev : Option HullRow) (r : HullRow) : Bool :=
  within 1 r.t 30000 && within 1 r.d 2000000 && within 1 r.km 50000 && within 0 r.lcb lpp &&
    within 0 r.lcf lpp && within 1 r.mtm 1000000000 &&
    (r.pairs.zip sections).all (fun q => within 0 q.1.f 65536 && within 0 q.1.a q.2.x) &&
    (match prev with
      | none => true
      | some o => decide (o.d < r.d) && decide (o.t < r.t)) &&
    nondecreasing (r.pairs.map (·.f))

/-- The outcome of `rowOk` for each row from the first (R5). -/
def rowChecks (lpp : Int) (sections : List CheckSection) : Option HullRow → List HullRow → List Bool
  | _, [] => []
  | prev, r :: rest => rowOk lpp sections prev r :: rowChecks lpp sections (some r) rest

/-- ROWS, with the row number from 0 (R5). -/
def rowsFault (t : TableImage) : Option Nat :=
  firstFail 0 (rowChecks t.particulars.lpp t.sections none t.rows)

/-- The last displacement D_(N−1) of the table (R5). -/
def lastD (rows : List HullRow) : Int := (rows.getLast?.map (·.d)).getD 0

/-- The outcome of each lightship aft sum, given the aft mass before it (R6). -/
def aftChecks (mass : Int) : Int → List AftSum → List Bool
  | _, [] => []
  | prev, w :: rest =>
    (within prev w.mass mass && within 0 w.moment 1000000000000 && (decide (w.moment = 0) == decide (w.mass = 0)))
      :: aftChecks mass w.mass rest

/-- LIGHTSHIP, with the section number, or 0 for the mass and the centre (R6). -/
def lightshipFault (t : TableImage) : Option Nat :=
  let p := t.particulars
  let l := t.lightship
  firstFail 0 ((within 1 l.mass (lastD t.rows - 1) && within 0 l.centre.x p.lpp &&
    within (-p.halfBreadth) l.centre.y p.halfBreadth && within 1 l.centre.z 50000) ::
      aftChecks l.mass 0 l.aft)

/-- The outcome of each check section, given the position of the one before it (R7). -/
def sectionChecks (lpp : Int) : Option Int → List CheckSection → List Bool
  | _, [] => []
  | prev, c :: rest =>
    (within 1 c.x (lpp - 1) && within 1 c.sfLimit 1000000 && within 0 c.sfBand c.sfLimit &&
      within 1 c.hogLimit 1000000000 && within 0 c.hogBand c.hogLimit && within 1 c.sagLimit 1000000000 &&
      within 0 c.sagBand c.sagLimit && (match prev with
        | none => true
        | some x => decide (x < c.x))) :: sectionChecks lpp (some c.x) rest

/-- SECTIONS, with the section number (R7). -/
def sectionsFault (t : TableImage) : Option Nat :=
  firstFail 1 (sectionChecks t.particulars.lpp none t.sections)

/-- The tank data of a TANK compartment (R9). -/
def tankOk (c : Compartment) (k : TankData) : Bool :=
  within 1 k.capacity 200000 && within 1 k.height 30000 && within c.zFrom k.floorZ (c.zTo - k.height) &&
    within c.xFrom k.x c.xTo && within c.yFrom k.y c.yTo && within 0 k.slackFsm 1000000000000 &&
    within 0 k.minLevel (k.height - 1) && within (k.minLevel + 1) k.maxLevel k.height

/-- A compartment record (R8). -/
def compartmentOk (c : Compartment) : Bool :=
  let m := 1000000
  within 1 c.owner 15 && within (-m) c.xFrom m && within (-m) c.xTo m && within (-m) c.yFrom m &&
    within (-m) c.yTo m && within (-m) c.zFrom m && within (-m) c.zTo m && decide (c.xFrom < c.xTo) &&
    decide (c.yFrom < c.yTo) && decide (c.zFrom < c.zTo) && within 1 c.maxMass 2000000 &&
    (match c.kind with
      | none => false
      | some .tank => c.pressure.isNone && (match c.tank with
          | none => false
          | some k => tankOk c k)
      | some _ => c.tank.isNone && (match c.pressure with
          | none => false
          | some v => within 1 v 1000000))

/-- COMPARTMENTS, with the compartment id (R8, R9). -/
def compartmentsFault (t : TableImage) : Option Nat := firstFail 1 (t.compartments.map compartmentOk)

/-- The requirement code of the matrix for classes i and j (R10). -/
def segregationCode (g : Segregation) (i j : Nat) : Int := (g.matrix.getD (i - 1) []).getD (j - 1) 0

/-- Row `i` of the matrix: every entry in 0..4 and equal to its mirror (R10). -/
def segregationRowOk (g : Segregation) (i : Nat) : Bool :=
  (List.range 9).all (fun j => within 0 (segregationCode g i (j + 1)) 4 &&
    decide (segregationCode g i (j + 1) = segregationCode g (j + 1) i))

/-- SEGREGATION_TABLE, with the row class (R10). A distance d1, d2 or d3 outside 0..100,000 has no failure and no detail
of its own in R10 or R19, so it is accepted and held as given (DESIGN CHOICE, log 48). -/
def segregationFault (t : TableImage) : Option Nat :=
  firstFail 1 ((List.range 9).map (fun i => segregationRowOk t.segregation (i + 1)))

/-- STATION_NUMBER (R11). -/
def stationNumberFault (t : StationSection) : Option Nat := if within 1 t.number 15 then none else some 0

/-- Common fields 2 to 8 (R11). -/
def commonFault (t : StationSection) : Option Nat :=
  let m := 1000000
  firstFail 2 [t.role.isSome, decide (t.period = 0) || (within 100 t.period 2000 && decide (t.period % 100 = 0)),
    decide (t.hold = 0) || within 200 t.hold 2000, t.quiet.isSome, within 0 t.envelopeMass 200000,
    within (-m) t.envelopePoint.x m && within (-m) t.envelopePoint.y m && within (-m) t.envelopePoint.z m,
    decide (t.filter.length = 4) && t.filter.all (fun e => within 0 e.station 15 && within 0 e.cls 9)]

/-- The crane data record: fields 1 to 16, details 21 to 36 (R12). -/
def craneFault (p : Particulars) (c : CraneData) : Option Nat :=
  firstFail 21 [within 0 c.pedestalX p.lpp && within (-p.halfBreadth) c.pedestalY p.halfBreadth,
    within 1 c.jibHead 100000, within 0 c.rmin 99999, within (c.rmin + 1) c.rmax 100000, within 1 c.swl 100000,
    within 1 c.pick c.swl, within 0 c.release (c.pick - 1), within 0 c.overloadTol c.swl, within 0 c.rigging 10000,
    within 0 c.radiusMargin (c.rmax - c.rmin), within 0 c.slewMargin 255, within 1 c.hookMassThreshold 10000,
    within 1 c.hookPosThreshold 10000, within 1 c.liftTimeLimit 60, c.inclinometer.isSome,
    match c.heelTolerance with
    | none => decide (c.inclinometer ≠ some true)
    | some v => decide (c.inclinometer = some true) && within 1 v 999]

/-- The pump data record: fields 1 to 7, details 41 to 47 (R13). -/
def pumpFault (count : Nat) (p : PumpData) : Option Nat :=
  firstFail 41 [within 1 p.portTank count, within 1 p.stbdTank count && decide (p.stbdTank ≠ p.portTank),
    within 1 p.startBand 999, within 0 p.stopBand (p.startBand - 1), within 0 p.deadSteps 15,
    p.autoDefault.isSome, within 1 p.tankThreshold 10000]

/-- STATION_FIELDS: common fields, then crane data, then pump data (R11 to R13). -/
def stationFieldsFault (t : TableImage) (c : StationSection) : Option Nat :=
  (commonFault c).or (((c.crane.bind (craneFault t.particulars))).or
    (c.pump.bind (pumpFault t.compartments.length)))

/-- The roles a line function is allowed in (R14). -/
def functionAllowed (role : Role) : LineFunction → Bool
  | .input | .outputLow | .outputHigh | .alarm => true
  | .hoistPermit | .slewCwPermit | .slewCcwPermit | .outreachPermit | .localStop | .setdownButton =>
    decide (role = .crane)
  | .pumpPs | .pumpSp => decide (role = .tank)

/-- A function that at most one line may carry (R14). -/
def functionSingle : LineFunction → Bool
  | .input | .outputLow | .outputHigh | .alarm => false
  | _ => true

/-- The outcome of each line, given the functions of the lines before it (R14). -/
def lineChecks (role : Role) : List LineFunction → List LineEntry → List Bool
  | _, [] => []
  | seen, e :: rest =>
    match e.function with
    | none => false :: lineChecks role seen rest
    | some f => (functionAllowed role f && !(functionSingle f && seen.contains f)) ::
        lineChecks role (f :: seen) rest

/-- Some line carries the function. -/
def hasFunction (lines : List LineEntry) (f : LineFunction) : Bool :=
  lines.any (fun e => decide (e.function = some f))

/-- LINES, with the line number, or 0 for a missing required line; where a line fails and a required one is missing as
well, the line number is recorded (R14; DESIGN CHOICE, log 49). -/
def linesFault (role : Role) (lines : List LineEntry) : Option Nat :=
  (firstFail 1 (lineChecks role [] lines)).or
    (match role with
      | .crane => if hasFunction lines .hoistPermit then none else some 0
      | .tank => if hasFunction lines .pumpPs && hasFunction lines .pumpSp then none else some 0
      | .desk => none)

/-- The compartments of a station number, with their ids, in id order (R8, R20). -/
def ownedBy (t : TableImage) (number : Int) : List (Nat × Compartment) :=
  ((List.range t.compartments.length).zip t.compartments).filterMap
    (fun q => if q.2.owner = number then some (q.1 + 1, q.2) else none)

/-- The compartment is of kind TANK. -/
def isTank (c : Compartment) : Bool := decide (c.kind = some .tank)

/-- The fixed centre y of the tank compartment `id`, if `id` is an own TANK compartment. -/
def ownTankY (t : TableImage) (number : Int) (id : Int) : Option Int :=
  ((ownedBy t number).find? (fun q => decide ((q.1 : Int) = id) && isTank q.2)).bind
    (fun q => q.2.tank.map (·.y))

/-- The first failing condition numbered in the table of R15. -/
def firstNumbered : List (Nat × Bool) → Option Nat
  | [] => none
  | (n, ok) :: rest => if ok then firstNumbered rest else some n

/-- ROLE_SECTION, with the number of the first failing condition of the station's own role (R15). -/
def roleFault (t : TableImage) (c : StationSection) (role : Role) : Option Nat :=
  let own := ownedBy t c.number
  let noTank := !own.isEmpty && own.all (fun q => !isTank q.2)
  match role with
  | .crane => firstNumbered [(1, c.crane.isSome && c.pump.isNone), (2, noTank), (3, decide (1 ≤ c.envelopeMass))]
  | .desk => firstNumbered [(4, c.crane.isNone && c.pump.isNone), (5, noTank), (6, decide (c.envelopeMass = 0))]
  | .tank =>
    let port := c.pump.bind (fun p => ownTankY t c.number p.portTank)
    let stbd := c.pump.bind (fun p => ownTankY t c.number p.stbdTank)
    firstNumbered [(7, c.pump.isSome && c.crane.isNone),
      (8, decide (2 ≤ own.length) && decide (own.length ≤ 8) && own.all (fun q => isTank q.2)),
      (9, port.isSome && stbd.isSome),
      (10, decide (port.getD 0 < 0) && decide (0 < stbd.getD 0)),
      (11, decide (c.envelopeMass = 0))]

/-- What a complete read left in the table store. -/
structure ReadResult where
  header : Header
  image : TableImage
  imageCrc : Word32
  tableCheck : Word32
  stationSection : StationSection
  sectionCrc : Word32
  sectionCheck : Word32
  deriving DecidableEq, Repr

/-- A fault record of kind `k` where the check gives a detail. -/
def faultAt (k : FaultKind) (d : Option Nat) : Option FaultRecord := d.map (FaultRecord.mk k)

/-- Validation of a complete read: the first failure in R19's order, or none. -/
def validate (r : ReadResult) : Option FaultRecord :=
  let t := r.image
  let c := r.stationSection
  let role := c.role.getD .desk
  (faultAt .format (formatFault r.header)).or <|
  (faultAt .tableCheck (if r.imageCrc = r.tableCheck then none else some 0)).or <|
  (faultAt .sectionCheck (if r.sectionCrc = r.sectionCheck then none else some 0)).or <|
  (faultAt .particulars (particularsFault t.particulars)).or <|
  (faultAt .rows (rowsFault t)).or <|
  (faultAt .lightship (lightshipFault t)).or <|
  (faultAt .sections (sectionsFault t)).or <|
  (faultAt .compartments (compartmentsFault t)).or <|
  (faultAt .segregationTable (segregationFault t)).or <|
  (faultAt .stationNumber (stationNumberFault c)).or <|
  (faultAt .stationFields (stationFieldsFault t c)).or <|
  (faultAt .lines (linesFault role c.lines)).or <|
  (faultAt .roleSection (roleFault t c role))

/-- The complete read held in the store, when every part has been read. -/
def TableStore.readResult (t : TableStore) : Option ReadResult :=
  match t.header, t.image, t.imageCrc, t.tableCheck, t.stationSection, t.sectionCrc, t.sectionCheck with
  | some h, some i, some ic, some tc, some c, some sc, some k => some ⟨h, i, ic, tc, c, sc, k⟩
  | _, _, _, _, _, _, _ => none

/-- The section check passed, for a section that can be located (R14). -/
def sectionPassed (r : ReadResult) : Bool :=
  (formatFault r.header).isNone && decide (r.sectionCrc = r.sectionCheck)

/-- The station number is shown in INVALID (R19). -/
def numberShown (r : ReadResult) : Option Nat :=
  if sectionPassed r && within 1 r.stationSection.number 15 then some r.stationSection.number.toNat else none

/-- The line configuration passes when checked on its own (R14). -/
def linesPass (r : ReadResult) : Bool :=
  sectionPassed r &&
    (match r.stationSection.role with
      | none => false
      | some role => (linesFault role r.stationSection.lines).isNone)

/-- The table identity is present (R18). -/
def identityShown (r : ReadResult) (k : FaultKind) : Option Word32 :=
  match k with
  | .memoryUnreadable | .format | .tableCheck => none
  | _ => some r.imageCrc

/-! ### What a LOADED store gives (R20)

Outside a LOADED store these give the values R92 and R98 name for FAULT, or empty tables that nothing uses. -/

/-- A table image with nothing in it. -/
def TableImage.empty : TableImage :=
  { particulars := ⟨1, 1, 1, 0, 0, 0, 1, 1, 1, 0, 0, 0, 0, 0, 0, 0, 0⟩, rows := []
    lightship := ⟨0, ⟨0, 0, 0⟩, []⟩, sections := [], compartments := [], segregation := ⟨[], 0, 0, 0⟩ }

/-- A station section with nothing in it. -/
def StationSection.empty : StationSection :=
  { number := 0, role := none, period := 0, hold := 0, quiet := none, envelopeMass := 0
    envelopePoint := ⟨0, 0, 0⟩, filter := [], crane := none, pump := none, lines := [] }

/-- Crane data of a station that has none. -/
def CraneData.empty : CraneData := ⟨0, 0, 0, 0, 0, 0, 0, 0, 0, 0, 0, 0, 0, 0, 0, none, none⟩

/-- Pump data of a station that has none. -/
def PumpData.empty : PumpData := ⟨0, 0, 0, 0, 0, none, 0⟩

/-- The store is LOADED. -/
def State.isLoaded (s : State) : Bool := decide (s.table.contents = .loaded)

/-- The table image of a LOADED store. -/
def State.img (s : State) : TableImage :=
  if s.isLoaded then s.table.image.getD TableImage.empty else TableImage.empty

/-- The station section of a LOADED store. -/
def State.sec (s : State) : StationSection :=
  if s.isLoaded then s.table.stationSection.getD StationSection.empty else StationSection.empty

/-- The role of a LOADED store; DESK, which has neither crane nor pumps, while there is none. -/
def State.role (s : State) : Role := s.sec.role.getD .desk

/-- The crane data (R12). -/
def State.craneData (s : State) : CraneData := s.sec.crane.getD CraneData.empty

/-- The pump data (R13). -/
def State.pumpData (s : State) : PumpData := s.sec.pump.getD PumpData.empty

/-- The own number: that of a LOADED store, or the number shown in INVALID (R19, R85). -/
def State.ownNumber (s : State) : Option Nat := s.table.number

/-- The broadcast period in force, ms; 500 where none is available (R11, R92, R98). -/
def State.period (s : State) : Nat := if s.sec.period = 0 then 500 else s.sec.period.toNat

/-- The hold window in force, ms (R11, R20). -/
def State.holdWindow (s : State) : Nat := if s.sec.hold = 0 then 400 else s.sec.hold.toNat

/-- The own compartments in id order (R20). -/
def State.ownCompartments (s : State) : List (Nat × Compartment) := ownedBy s.img s.sec.number

/-- The own tanks in id order, with their tank data (R20). -/
def State.ownTanks (s : State) : List (Nat × TankData) :=
  s.ownCompartments.filterMap (fun q => if isTank q.2 then q.2.tank.map (fun k => (q.1, k)) else none)

/-- The positions x_1..x_K of the check sections (R7). -/
def State.sectionXs (s : State) : List Int := s.img.sections.map (·.x)

/-- The hull footprint test of R4. -/
def insideHull (p : Particulars) (q : Point) : Bool :=
  within 0 q.x p.lpp && within (-p.halfBreadth) q.y p.halfBreadth

/-- An inclinometer is fitted, at a CRANE station (R12). -/
def State.inclinometer (s : State) : Bool :=
  decide (s.role = .crane) && decide (s.craneData.inclinometer = some true)

/-- The configured entry of line L`n` (R14). -/
def State.lineEntry (s : State) (n : Nat) : Option LineEntry :=
  if s.lines.applied then (s.table.stationSection.map (·.lines)).bind (fun ls => ls[n - 1]?) else none

end Sys2Proof.Machine
end

