-- ==== Sys2Proof/WellFormed.lean ====
section
/-! DEFINITION. Which terms of Instr are commands: the operands a sender can give, and for a command that names an
outcome of a check (R107, R145, R165, R186), operands that have that outcome. `exec` is total and judges every
operand itself (log 6). -/

namespace Sys2Proof

open Machine

/-- The bytes pass the frame check and carry a body for which `p` holds (R107). -/
def frameWith (p : FrameBody → Bool) (bytes : List Byte) : Bool := (frameOf bytes).any (fun f => p f.body)

/-- A line number 1..12 (R14). -/
def lineOk (n : Nat) : Bool := decide (1 ≤ n) && decide (n ≤ 12)

/-- A station number 1..15 (00_scope.md 2.1). -/
def stationOk (n : Nat) : Bool := decide (1 ≤ n) && decide (n ≤ 15)

/-- The list holds no value twice: the codes of a set (R179). -/
def noRepeats : List Nat → Bool
  | [] => true
  | c :: cs => !cs.contains c && noRepeats cs

/-- The image's parts agree in their lengths, as one header could declare them (R3). -/
def imageConsistent (t : TableImage) : Bool :=
  imageFitsHeader ⟨4, t.rows.length, t.sections.length, t.compartments.length⟩ t

/-- A memory part has the shape of its record (R3, R11, R14). -/
def partOk : MemoryPart → Bool
  | .image t bytes => imageConsistent t && !bytes.isEmpty
  | .stationSection t bytes => sectionFits t && !bytes.isEmpty
  | .header _ | .tableCheck _ | .sectionCheck _ | .ended | .absent => true

/-- A panel record cut short: its declared length has not been received (R186). -/
def panelCutShort (bs : List Byte) : Bool :=
  !bs.isEmpty && (decide (bs.length < 6) || decide (bs.length < 6 + readNat bs 4 2 + 2))

/-- The bytes are a LEVELS record of the count it carries (R165). -/
def levelsRecordOk (bs : List Byte) : Bool := (levelsOf (readNat bs 1 1) bs).isSome

/-- The term is a command. -/
def wellFormed : Instr → Bool
  | .powerOn _ | .brownOut _ | .supplyRecover _ | .supplyOff _ | .restartLine _ | .restartLineRelease _
  | .restartResponseSent _ => true
  | .memoryRead _ part => partOk part
  | .memoryReadTimeout _ | .listenTimeout _ | .quietFilterExpiry _ => true
  | .panelRecordInvalid _ bytes => !panelRecordOk bytes && !panelCutShort bytes
  | .panelFragmentTimeout _ bytes => panelCutShort bytes
  | .addItem _ _ _ | .amendItem _ _ _ | .markOut _ _ _ | .cancelItem _ _ _ | .stowDirect _ _ _
  | .dischargeDirect _ _ _ | .resolveItem _ _ _ | .listItems _ _ _ => true
  | .trialAdd _ _ _ | .trialMove _ _ _ | .trialDrop _ _ | .trialClear _ _ | .trialAdopt _ _ => true
  | .liftRequest _ _ _ | .liftAbort _ _ | .setDown _ _ _ | .readCondition _ _ _ | .readView _ _
  | .readStatus _ _ | .readEvents _ _ => true
  | .setMask _ _ codes => codes.all noRepeats
  | .readJournal _ _ _ | .switchBank _ _ | .pumpManual _ _ _ | .pumpAuto _ _ _ | .restart _ _ => true
  | .retainedWriteComplete _ => true
  | .rollcall _ bytes => frameWith (fun b => kindCode b == 1) bytes
  | .share _ bytes => frameWith (fun b => kindCode b == 2) bytes
  | .claim _ bytes => frameWith (fun b => kindCode b == 3) bytes
  | .yield _ bytes => frameWith (fun b => kindCode b == 4) bytes
  | .done _ bytes => frameWith (fun b => kindCode b == 5) bytes
  | .tag _ bytes => frameWith (fun b => kindCode b == 6) bytes
  | .frameCheckFail _ bytes => (frameOf bytes).isNone && !cutShort bytes
  | .lineIdleTimeout _ bytes => cutShort bytes
  | .fragmentReceived _ bytes => !bytes.isEmpty
  | .txAttemptStart _ | .txCollision _ | .txBackoffExpiry _ | .txComplete _ => true
  | .shareIntervalExpiry _ | .shareSpacingExpiry _ | .rollcallAnswerDue _ | .tagRotation _ => true
  | .peerStale _ station => stationOk station
  | .peerLost _ station => stationOk station
  | .frameCheckWindowClose _ | .heelFilterExpiry _ => true
  | .solverIntervalExpiry _ | .passStart _ | .publish _ | .backoffExpiry _ | .liftOverdue _ => true
  | .hookRecord _ bytes => (hookRecordOf bytes).isSome
  | .levelsRecord _ bytes => levelsRecordOk bytes
  | .sensorRecordDiscard _ bytes => !bytes.isEmpty
  | .sensorHolding _ | .sensorLost _ | .deadIntervalExpiry _ => true
  | .lineLevelChange _ line _ => lineOk line
  | .inputFilterExpiry _ line => lineOk line
  | .mapSettleExpiry _ => true

end Sys2Proof
end

