-- ==== Sys2Proof/Decode.lean ====
section
/-! DEFINITION. Words of the opcode table. The table gives none of its 75 rows any bits, so no word spells a
command. -/

namespace Sys2Proof

/-- The command that a word of `nbits` bits spells: none, whatever the word. -/
def decodeTableWord (_nbits _w : Nat) : Option Instr := none

end Sys2Proof
end

