-- ==== Sys2Proof/Config.lean ====
section
/-! DEFINITION. What the manual leaves open and no rule settles: the free values. None has a body, so nothing
can be proved of the number it takes. -/

namespace Sys2Proof

/-- The draw behind the random delay after a collided attempt (R106: 'a whole number of milliseconds drawn
uniformly from 0..4 × a'). It is applied to the count of draws made so far, and the delay is its value
modulo 4a + 1, so the range R106 states is kept and the number in it is free (log 10). -/
opaque Config.backoffDraw : Nat → Nat

end Sys2Proof
end

