-- ==== Sys2Proof/Machine/Operands.lean ====
section
/-! DEFINITION. The arguments of requests: their ranges (R25, R44 to R46, R127), the placement checks (R23), the
segregation check (R24, R47) and the lookups in the item list they rest on. -/

namespace Sys2Proof.Machine

/-! ### The item list -/

/-- The record that holds an item number. -/
def findItem (n : Nat) (items : List Item) : Option Item := items.find? (fun i => decide (i.number = n))

/-- The place (from 0) of the record that holds an item number. -/
def placeOf (n : Nat) (items : List Item) : Option Nat := items.findIdx? (fun i => decide (i.number = n))

/-- The list with the record of the same number replaced in its place (R21). -/
def replaceItem (i : Item) (items : List Item) : List Item :=
  items.map (fun j => if j.number = i.number then i else j)

/-- The list without the record of a number; later records move up (R21). -/
def removeItem (n : Nat) (items : List Item) : List Item := items.filter (fun j => decide (j.number ≠ n))

/-- The lowest number in 1..255 that no record holds (R21). -/
def lowestFree (items : List Item) : Nat :=
  (((List.range 255).map (· + 1)).find? (fun n => (findItem n items).isNone)).getD 0

/-- Where a record stands for segregation and TAG: stowed position, else landing point, else planned position
(R24, R112). -/
def tagPoint (i : Item) : Point := i.stowed.getD ((i.landing.map (·.point)).getD i.planned)

/-- The item is under the own claim (R25). -/
def underClaim (s : State) (n : Nat) : Bool :=
  decide (s.claim.state ≠ .none) && s.claim.record.any (fun c => decide (c.item = n))

/-! ### Argument ranges -/

/-- A coordinate range of R25 and R45. -/
def pointInRange (p : Point) : Bool :=
  within (-1000000) p.x 1000000 && within (-1000000) p.y 1000000 && within (-1000000) p.z 1000000

/-- A compartment id in 1..C. -/
def compInRange (s : State) (c : Nat) : Bool := decide (1 ≤ c) && decide (c ≤ s.img.compartments.length)

/-- An item number in 1..255. -/
def itemInRange (n : Nat) : Bool := decide (1 ≤ n) && decide (n ≤ 255)

/-- A class in 1..9, or none. -/
def classInRange (c : Option Nat) : Bool := c.all (fun v => decide (1 ≤ v) && decide (v ≤ 9))

/-- The ranges of a cargo unit's mass, position, compartment, footprint and class (R25, R44). -/
def cargoInRange (s : State) (mass : Int) (pos : Point) (comp : Nat) (length breadth : Int)
    (cls : Option Nat) : Bool :=
  within 1 mass 100000 && pointInRange pos && compInRange s comp && within 100 length 30000 &&
    within 100 breadth 30000 && classInRange cls

/-- The ranges of the fields of ADD ITEM (R25). -/
def itemArgsInRange (s : State) (a : ItemArgs) : Bool :=
  decide (a.label ≤ 65535) && cargoInRange s a.mass a.pos a.comp a.length a.breadth a.cls

/-- An optional position with its compartment id: both or neither, each in range (R25, R34, R37). -/
def placeInRange (s : State) : Option Point → Option Nat → Bool
  | none, none => true
  | some p, some c => pointInRange p && compInRange s c
  | _, _ => false

/-! ### Placement checks (R23) -/

/-- The point lies inside the compartment's bounds, each inclusive. -/
def insideBounds (c : Compartment) (p : Point) : Bool :=
  within c.xFrom p.x c.xTo && within c.yFrom p.y c.yTo && within c.zFrom p.z c.zTo

/-- The first failing placement check for position `p` in compartment `comp` (R23). -/
def placementRefusal (s : State) (p : Point) (comp : Nat) (mass length breadth : Int) : Option ResultCode :=
  match s.ownCompartments.find? (fun q => decide (q.1 = comp)) with
  | none => some .notOwned
  | some (_, c) =>
    firstRefusal [(!insideBounds c p, .outOfCompartment),
      (decide (c.pressure.getD 0 * length * breadth < mass * 1000000), .pressure)]

/-! ### Segregation (R24, R47) -/

/-- A classed item known to the station, where it stands. -/
structure Classed where
  cls : Nat
  x : Int
  y : Int
  comp : Nat
  deriving DecidableEq, Repr

/-- The squared horizontal distance. -/
def distance2 (p q : Classed) : Int := (p.x - q.x) * (p.x - q.x) + (p.y - q.y) * (p.y - q.y)

/-- A pair passes the requirement code of its classes (R24). -/
def pairPasses (g : Segregation) (p q : Classed) : Bool :=
  match segregationCode g p.cls q.cls with
  | 0 => true
  | 1 => decide (g.d1 * g.d1 ≤ distance2 p q)
  | 2 => decide (g.d2 * g.d2 ≤ distance2 p q)
  | 3 => decide (p.comp ≠ q.comp)
  | _ => decide (p.comp ≠ q.comp) && decide (g.d3 * g.d3 ≤ distance2 p q)

/-- The classed records of a list other than number `own`, each at its R24 position. -/
def classedItems (own : Option Nat) (items : List Item) : List Classed :=
  items.filterMap (fun i =>
    if own = some i.number then none
    else i.cls.map (fun c => ⟨c, (tagPoint i).x, (tagPoint i).y, i.comp⟩))

/-- The entries of the classed-item map. -/
def classedMap (m : List MapEntry) : List Classed := m.map (fun e => ⟨e.cls, e.x, e.y, e.comp⟩)

/-- The segregation check fails for a candidate against the classed items given; an item without a class is
not tested (R24). -/
def segregationFails (s : State) (cls : Option Nat) (p : Point) (comp : Nat) (others : List Classed) : Bool :=
  match cls with
  | none => false
  | some c => others.any (fun q => !pairPasses s.img.segregation ⟨c, p.x, p.y, comp⟩ q)

/-- The segregation check of a stowage request (R24): own records other than `own`, and the map. -/
def segregated (s : State) (own : Option Nat) (cls : Option Nat) (p : Point) (comp : Nat) : Bool :=
  segregationFails s cls p comp (classedItems own s.stowage.items ++ classedMap s.stowage.map)

/-- The topmost non-void MOVE for an item on a stack listed bottom first (R47). -/
def topMove (n : Nat) : List TrialEntry → Option (Point × Nat)
  | [] => none
  | e :: rest =>
    (topMove n rest).or (match e with
      | .move item pos comp voided => if item = n && !voided then some (pos, comp) else none
      | .add .. => none)

/-- Own records for a trial's segregation check: a PLANNED_IN record stands where its topmost MOVE puts it
(R47). -/
def classedTrialItems (own : Option Nat) (stack : List TrialEntry) (items : List Item) : List Classed :=
  items.filterMap (fun i =>
    if own = some i.number then none
    else i.cls.map (fun c =>
      match if i.state = .plannedIn then topMove i.number stack else none with
      | some (p, comp) => ⟨c, p.x, p.y, comp⟩
      | none => ⟨c, (tagPoint i).x, (tagPoint i).y, i.comp⟩))

/-- The classed ADD entries of a stack (R47). -/
def classedTrials (stack : List TrialEntry) : List Classed :=
  stack.filterMap (fun e =>
    match e with
    | .add _ pos comp _ _ cls => cls.map (fun c => ⟨c, pos.x, pos.y, comp⟩)
    | .move .. => none)

/-- The segregation check of a trial with the entries of `stack` in place (R47). -/
def trialSegregated (s : State) (own : Option Nat) (cls : Option Nat) (p : Point) (comp : Nat)
    (stack : List TrialEntry) : Bool :=
  segregationFails s cls p comp
    (classedTrialItems own stack s.stowage.items ++ classedTrials stack ++ classedMap s.stowage.map)

end Sys2Proof.Machine
end

