-- ==== Sys2Proof/Machine/Flags.lean ====
section
/-! DEFINITION. The conditions the station derives from its state and holds: the alarm condition (R180), freshness
and the clean view (R92, R97), the state conditions of quiet operation (R119), the permits (R155 to R159), and the
levels of the lines (R160, R162, R163). -/

namespace Sys2Proof.Machine

/-! ### Events (chapter 10) -/

/-- The 22 kinds in the order of their codes. -/
def allKinds : List EventKind :=
  [.peerStale, .peerLost, .peerBack, .tableMismatch, .frameCheck, .linkTx, .sensorLost, .heelMismatch] ++
  [.limitAmber, .limitRed, .claimYielded, .claimConflict, .liftOverdue, .unclaimedLoad, .claimOverload] ++
  [.segregation, .tagMapFull, .journalFull, .pumpLimit, .wake, .duplicateStation, .retainedLost]

/-- The kind of an event code, 1..22. -/
def kindOfCode (n : Nat) : Option EventKind := if n = 0 then none else allKinds[n - 1]?

/-- A set of kinds with one more, listed in the order of the codes (R177). -/
def insertKind (k : EventKind) (ks : List EventKind) : List EventKind :=
  allKinds.filter (fun j => decide (j = k) || ks.contains j)

/-- The alarm condition of the latched set, the mask and the held verdicts (R180). -/
def alarmHolds (r : Report) : Bool :=
  r.latched.any (fun k => !r.mask.contains k) || decide (r.actual = .red) || decide (r.lift = .red)

/-! ### Freshness (R92) -/

/-- The broadcast period of an entry; the own period stands in while it is absent (R92). -/
def peerPeriod (own : Nat) (e : PeerEntry) : Nat := (e.roll.map (fun r => r.period.toNat)).getD own

/-- The quiet flag of an entry, clear until a SHARE sets it (R86). -/
def peerQuiet (e : PeerEntry) : Bool := (e.share.map (·.quiet)).getD false

/-- The stale time of an entry, ms (R92). -/
def staleTime (own : Nat) (e : PeerEntry) : Nat := peerPeriod own e * (if peerQuiet e then 12 else 3)

/-- The lost time of an entry, ms (R92). -/
def lostTime (own : Nat) (e : PeerEntry) : Nat := peerPeriod own e * (if peerQuiet e then 40 else 10)

/-- The state of an entry with every timeout that has passed by `now` in force (R92, R95). -/
def stateAt (own now : Nat) (e : PeerEntry) : PeerState :=
  match e.state with
  | .lost => .lost
  | .stale => if e.lastHeard + lostTime own e ≤ now then .lost else .stale
  | .fresh =>
    if e.lastHeard + lostTime own e ≤ now ∧ e.lastHeard + staleTime own e ≤ now then .lost
    else if e.lastHeard + staleTime own e ≤ now then .stale
    else .fresh

/-- The entries with their states as of `now` (R95). -/
def entriesAt (s : State) (now : Nat) : List PeerEntry :=
  s.view.entries.map (fun e => { e with state := stateAt s.period now e })

/-- The frame-check window as of `now`: open for 10 own periods after the latest failure (R98). -/
def windowAt (s : State) (now : Nat) : Bool :=
  s.view.windowOpen && s.view.failureAt.any (fun t => decide (now < t + 10 * s.period))

/-- The sensor port as of `now` (R147). -/
def portAt (s : State) (now : Nat) : PortState :=
  match s.sensor.port, s.sensor.lastRecord with
  | .lost, _ => .lost
  | p, none => p
  | .holding, some t => if t + 1300 ≤ now then .lost else .holding
  | .fresh, some t => if t + 1300 ≤ now then .lost else if t + 300 ≤ now then .holding else .fresh

/-! ### The clean view (R97) -/

/-- Heel agreement as of `now`: changed once its filter has run for 10 s (R97, R100). -/
def agreementAt (s : State) (now : Nat) : Bool :=
  if s.view.heelFilter.any (fun t => decide (t + 10000 ≤ now)) then !s.view.agreement else s.view.agreement

/-- The station takes no sensor record for want of a store: it is in FAULT, or in HALT entered from it, where the view
stays as it was frozen (R97, R102). -/
def faulted (s : State) : Bool :=
  decide (s.station.state = .fault) || (decide (s.station.state = .halt) && !s.isLoaded)

/-- The five parts of the clean-view condition, from entries, window, port and agreement; in FAULT, and in HALT entered
from it, part 4 fails and part 5 holds (R97, R102). -/
def cleanPartsOf (s : State) (entries : List PeerEntry) (window : Bool) (port : PortState) (agreement : Bool) :
    List Bool :=
  [entries.all (fun e => decide (e.state = .fresh)),
    entries.all (fun e => decide (e.identity = .matching)),
    !window,
    if faulted s then false else decide (s.role = .desk) || decide (port = .fresh),
    if s.inclinometer then agreement else true]

/-- The five parts as the station has acted on them. -/
def cleanParts (s : State) : List Bool :=
  cleanPartsOf s s.view.entries s.view.windowOpen s.sensor.port s.view.agreement

/-- The five parts as of `now`, every timeout that has passed by then in force (R95, R97). -/
def cleanPartsAt (s : State) (now : Nat) : List Bool :=
  cleanPartsOf s (entriesAt s now) (windowAt s now) (portAt s now) (agreementAt s now)

/-- The station is in LISTEN, RUN or QUIET, where its blocks work. -/
def working (s : State) : Bool :=
  match s.station.state with
  | .listen | .run | .quiet => true
  | _ => false

/-- The clean-view condition as the station has acted on its parts; false in START, FAULT and HALT (R97). -/
def cleanNow (s : State) : Bool := working s && (cleanParts s).all id

/-- The clean-view condition as of `now` (R97). -/
def cleanAt (s : State) (now : Nat) : Bool := working s && (cleanPartsAt s now).all id

/-! ### Hook and tanks as the other blocks see them -/

/-- The hook position (R149). -/
def hookPosition (s : State) : Option Point :=
  s.crane.held.map (fun h =>
    radiusPoint s.craneData.pedestalX s.craneData.pedestalY h.radius h.height h.slew)

/-- The own hook term: present at or above the pick threshold (R62, R148). -/
def hookTerm (s : State) : Option HookTerm :=
  match s.crane.held, hookPosition s with
  | some h, some p => if s.craneData.pick ≤ h.load then some ⟨h.load, p⟩ else none
  | _, _ => none

/-- One tank term from its data and held level (R167). -/
def tankTerm (k : TankData) (l : Int) : PointTerm :=
  { mass := roundDiv (k.capacity * l) k.height, point := ⟨k.x, k.y, k.floorZ + roundDiv l 2⟩
    fsm := if 0 < l ∧ l < k.height then k.slackFsm else 0 }

/-- The own tank terms; none while the levels are absent (R167). -/
def tankTerms (s : State) : List PointTerm :=
  match s.pump.levels with
  | none => []
  | some ls => (s.ownTanks.zip ls).map (fun q => tankTerm q.1.2 q.2)

/-- The held level of the own tank with compartment id `id`. -/
def tankLevel (s : State) (id : Int) : Option (TankData × Int) :=
  match s.pump.levels with
  | none => none
  | some ls => ((s.ownTanks.zip ls).find? (fun q => decide ((q.1.1 : Int) = id))).map (fun q => (q.1.2, q.2))

/-- The held level of the tank of an `id` satisfies `p`; absent levels satisfy nothing. -/
def levelTest (s : State) (id : Int) (p : TankData → Int → Bool) : Bool :=
  (tankLevel s id).any (fun q => p q.1 q.2)

/-- The level limit of a direction (R174). -/
def levelLimit (s : State) (d : Demand) : Bool :=
  let port := s.pumpData.portTank
  let stbd := s.pumpData.stbdTank
  let atMin := fun (k : TankData) (l : Int) => decide (l ≤ k.minLevel)
  let atMax := fun (k : TankData) (l : Int) => decide (k.maxLevel ≤ l)
  match d with
  | .none => false
  | .ps => levelTest s port atMin || levelTest s stbd atMax
  | .sp => levelTest s stbd atMin || levelTest s port atMax

/-! ### Quiet operation (R119) -/

/-- An output is ACTIVE whose dead interval ran out at `now`: an evaluation at that same moment that stops it finds it not
ACTIVE (R173; log 45). -/
def justStarted (now : Nat) (p : Pump) : Bool :=
  (decide (p.ps = .active) && decide (p.duePs = some now)) || (decide (p.sp = .active) && decide (p.dueSp = some now))

/-- The state conditions of R119. -/
def quietConditions (s : State) : Bool :=
  decide (s.claim.state = .none) &&
    (decide (s.role ≠ .crane) || !s.crane.held.any (fun h => decide (s.craneData.pick ≤ h.load))) &&
    (decide (s.role ≠ .tank) || (decide (s.pump.ps ≠ .active) && decide (s.pump.sp ≠ .active)))

/-! ### Lines as inputs (R160) -/

/-- The configured function of line `n`. -/
def lineFunction (s : State) (n : Nat) : Option LineFunction := (s.lineEntry n).bind (·.function)

/-- Line `n` is sampled: configured as INPUT, LOCAL_STOP or SETDOWN_BUTTON (R160). -/
def lineSampled (s : State) (n : Nat) : Bool :=
  match lineFunction s n with
  | some .input | some .localStop | some .setdownButton => true
  | _ => false

/-- The line as sampled. -/
def lineInput (s : State) (n : Nat) : LineInput := s.lines.inputs.getD (n - 1) ⟨false, 0, false⟩

/-- An input's level: the raw level read through its sense (R14, R160). -/
def lineLevel (s : State) (n : Nat) : Bool :=
  match s.lineEntry n with
  | some e => if e.sense = .plain then (lineInput s n).raw else !(lineInput s n).raw
  | none => (lineInput s n).raw

/-- The numbers of the twelve lines. -/
def lineNumbers : List Nat := [1, 2, 3, 4, 5, 6, 7, 8, 9, 10, 11, 12]

/-- A LOCAL_STOP line is active after filtering (R155). -/
def localStopActive (s : State) : Bool :=
  lineNumbers.any (fun n => decide (lineFunction s n = some .localStop) && (lineInput s n).filtered)

/-! ### Permits (R155 to R159) -/

/-- The common conditions of every permit (R155). -/
def permitCommon (s : State) : Bool :=
  (decide (s.station.state = .run) || decide (s.station.state = .quiet)) && decide (s.sensor.port = .fresh) &&
    !localStopActive s

/-- The verdict lets a committed lift go on (R156, R157). -/
def verdictAllows (v : Verdict) : Bool := decide (v = .green) || decide (v = .amber)

/-- HOIST_PERMIT beyond the common conditions (R156). -/
def hoistAllowed (s : State) (h : HookValues) : Bool :=
  !s.crane.unclaimed &&
    match s.claim.state, s.claim.record with
    | .none, _ => decide (h.load < s.craneData.pick)
    | .committed, some c =>
      verdictAllows s.crane.verdict && decide (h.load ≤ c.mass + s.craneData.overloadTol)
    | _, _ => false

/-- Sector gating: clockwise, counter-clockwise (R158). -/
def sectorGate (margin : Int) (c : ClaimRecord) (slew : Nat) : Bool × Bool :=
  let offset := slewOffset c.a1 slew
  let w := sectorWidth c.a1 c.a2
  if w = 1024 then (true, true)
  else if offset ≤ w then (decide ((offset : Int) < w - margin), decide (margin < offset))
  else (decide (1024 - offset ≤ offset - w), decide (offset - w < 1024 - offset))

/-- SLEW_CW_PERMIT and SLEW_CCW_PERMIT beyond the common conditions (R157). -/
def slewAllowed (s : State) (h : HookValues) : Bool × Bool :=
  if s.crane.unclaimed then (false, false)
  else
    match s.claim.state, s.claim.record with
    | .committed, some c =>
      if verdictAllows s.crane.verdict then sectorGate s.craneData.slewMargin c h.slew else (false, false)
    | .committed, none => (false, false)
    | _, _ => (true, true)

/-- OUTREACH_PERMIT beyond the common conditions (R159). -/
def outreachAllowed (s : State) (h : HookValues) : Bool :=
  !s.crane.unclaimed &&
    match s.claim.state, s.claim.record with
    | .committed, some c => decide (h.radius < c.maxRadius - s.craneData.radiusMargin)
    | .committed, none => false
    | _, _ => true

/-- The permits an evaluation sets (R154 to R159); a station without a crane has none active. -/
def permitsOf (s : State) : Permits :=
  match s.crane.held with
  | none => .inactive
  | some h =>
    if s.role = .crane ∧ permitCommon s = true then
      ⟨hoistAllowed s h, (slewAllowed s h).1, (slewAllowed s h).2, outreachAllowed s h⟩
    else .inactive

/-! ### Lines as outputs (R162, R163) -/

/-- A brown-out or a restart line assertion has been detected and its reset is pending (R193). -/
def resetDetected (s : State) : Bool := s.power.low || s.power.line

/-- The safe state applies (R163). -/
def safeState (s : State) : Bool :=
  resetDetected s ||
    match s.station.state with
    | .start | .fault | .halt => true
    | _ => false

/-- An output of the function is active (R162, R163); none for a function that is no output. -/
def outputActive (s : State) : LineFunction → Option Bool
  | .outputHigh => some true
  | .outputLow => some false
  | .alarm => some (safeState s || s.report.alarm)
  | .hoistPermit => some (!safeState s && s.crane.permits.hoist)
  | .slewCwPermit => some (!safeState s && s.crane.permits.slewCw)
  | .slewCcwPermit => some (!safeState s && s.crane.permits.slewCcw)
  | .outreachPermit => some (!safeState s && s.crane.permits.outreach)
  | .pumpPs => some (!safeState s && decide (s.pump.ps = .active))
  | .pumpSp => some (!safeState s && decide (s.pump.sp = .active))
  | .input | .localStop | .setdownButton => none

/-- The level driven on line `n`, true for its on level; none while it is undriven or an input (R14, R162). -/
def lineDriven (s : State) (n : Nat) : Option Bool :=
  match s.lineEntry n with
  | none => none
  | some e =>
    (e.function.bind (outputActive s)).map (fun b => if e.sense = .plain then b else !b)

end Sys2Proof.Machine
end

