-- ==== Sys2Proof/Machine/Ops.lean ====
section
/-! DEFINITION. The operations the meanings share: time, events, the dirty mark and SHARE causes, quiet operation,
the transmit queue, retained memory, the panel port, the own claim's state changes, and a reset. -/

namespace Sys2Proof.Machine

/-! ### Time -/

/-- The own timer's reading, ms (00_scope.md 4.4). -/
def State.now (s : State) : Nat := s.station.timer

/-- A time that runs out at `t` has run out (R92: 'has passed' means equal or greater). -/
def passed (t : Option Nat) (s : State) : Bool := t.any (fun v => decide (v ≤ s.now))

/-- The station takes frames, records, requests and line inputs: no detected reset is pending (R193). -/
def takesInputs (s : State) : Bool := !resetDetected s

/-! ### Events and alarm (R177, R180) -/

/-- The alarm condition is evaluated (R180). -/
def evalAlarm (s : State) : State := s.setReport { s.report with alarm := alarmHolds s.report }

/-- A request to latch an event kind; in HALT the set is kept as it stands (R177). -/
def latch (k : EventKind) (s : State) : State :=
  if s.station.state = .halt then s
  else evalAlarm (s.setReport { s.report with latched := insertKind k s.report.latched })

/-- Latch when a condition holds. -/
def latchIf (b : Bool) (k : EventKind) (s : State) : State := if b then latch k s else s

/-! ### Solver and permits -/

/-- The dirty mark is set (R55). -/
def markDirty (s : State) : State := s.setSolver { s.solver with dirty := true }

/-- The permits are evaluated (R154). -/
def evalPermits (s : State) : State := s.setCrane { s.crane with permits := permitsOf s }

/-- The clean-view condition is evaluated; a change of the whole condition sets the dirty mark (R97). -/
def evalClean (s : State) : State :=
  if cleanNow s = s.view.clean then s
  else markDirty (s.setView { s.view with clean := cleanNow s })

/-! ### SHARE causes and quiet operation -/

/-- An immediate SHARE cause, or a SHARE due: a placeholder is queued when none waits (R114, R115). Only a
working station transmits (R105). -/
def shareCause (s : State) : State :=
  if working s then s.setLink { s.link with placeholder := true, wakeCause := false } else s

/-- The station leaves QUIET for RUN: WAKE is latched and leaving is an immediate SHARE cause; the filter
restarts once the state conditions hold (R121). -/
def wake (s : State) : State :=
  let s := s.setStation { s.station with
    state := .run, since := s.now, quietStart := if quietConditions s then some s.now else none }
  (latch .wake s).setLink { s.link with placeholder := true, wakeCause := !s.link.placeholder }

/-- An activity event (R119, R121): it restarts the quiet filter in RUN and wakes a QUIET station, and what it does so
stands (log 45). -/
def activity (s : State) : State :=
  match s.station.state with
  | .quiet => wake (s.setStation { s.station with quietBefore := none })
  | .run => s.setStation { s.station with
      quietStart := if quietConditions s then some s.now else none, quietBefore := none }
  | _ => s

/-- The state conditions are looked at again after a change (R119, R121): a failure stops the filter in RUN and
wakes a QUIET station; the filter starts when they come to hold again. -/
def watchQuiet (s : State) : State :=
  match s.station.state with
  | .quiet => if quietConditions s then s else wake s
  | .run =>
    if quietConditions s then
      s.setStation { s.station with quietStart := some (s.station.quietStart.getD s.now) }
    else s.setStation { s.station with quietStart := none }
  | _ => s

/-! ### Time passes -/

/-- `dt` milliseconds pass on the own timer (log 1). -/
def elapse (dt : Nat) (s : State) : State :=
  s.setStation { s.station with timer := s.station.timer + dt }

/-! ### The transmit queue (R113) -/

/-- A fixed frame is placed behind the last fixed frame; the 33rd is not queued and LINK_TX is latched
(R113 rules 1 and 4). -/
def queueFixed (f : Fixed) (s : State) : State :=
  if s.link.queue.length < 32 then s.setLink { s.link with queue := s.link.queue ++ [f] }
  else latch .linkTx s

/-- The fixed frame is a ROLLCALL. -/
def isRollcall : Fixed → Bool
  | .rollcall _ => true
  | _ => false

/-- A waiting ROLLCALL's request flag is set when this call sets it (R117). -/
def mergeRequest (request : Bool) : Fixed → Fixed
  | .rollcall r => .rollcall (r || request)
  | f => f

/-- A ROLLCALL is to be queued; a waiting one serves for both (R117). -/
def queueRollcall (request : Bool) (s : State) : State :=
  if s.link.queue.any isRollcall then
    s.setLink { s.link with queue := s.link.queue.map (mergeRequest request) }
  else queueFixed (.rollcall request) s

/-- The fixed frame is a TAG for the item. -/
def isTagFor (item : Nat) : Fixed → Bool
  | .tag b => decide (b.item = item)
  | _ => false

/-- A TAG is queued; it replaces a waiting TAG for the same item. A present TAG so queued is the item's latest,
a withdrawn one ends it (R112, R113 rule 2). -/
def queueTag (b : TagBody) (s : State) : State :=
  let queue := s.link.queue.filter (fun f => !isTagFor b.item f)
  let others := s.link.tagged.filter (fun t => decide (t.item ≠ b.item))
  let tagged :=
    if b.present then
      if queue.length < 32 then others ++ [b] else s.link.tagged
    else others
  queueFixed (.tag b) (s.setLink { s.link with queue := queue, tagged := tagged })

/-- The present TAG of a classed item (R112). -/
def presentTag (i : Item) (cls : Nat) : TagBody :=
  ⟨i.number, cls, true, (tagPoint i).x, (tagPoint i).y, i.comp⟩

/-- The withdrawn TAG of an item: as in its latest present TAG, or as it stood (R112). -/
def withdrawnTag (tagged : List TagBody) (i : Item) (cls : Nat) : TagBody :=
  { (tagged.find? (fun t => decide (t.item = i.number))).getD (presentTag i cls) with present := false }

/-! ### Changes of the item list (R41, R48) -/

/-- The VOID mark of every MOVE entry that names the item is set (R48). -/
def voidMoves (n : Nat) (stack : List TrialEntry) : List TrialEntry :=
  stack.map (fun e =>
    match e with
    | .move item pos comp voided => .move item pos comp (voided || decide (item = n))
    | .add .. => e)

/-- The rotation pointer after the record at place `j` is removed (R118). -/
def pointerAfterRemoval (j : Nat) (p : RotationPointer) : RotationPointer :=
  if j < p.place then { p with place := p.place - 1 }
  else if j = p.place ∧ p.gone = false then { p with gone := true }
  else p

/-- The TAG of a change: present for an item that is classed after it, withdrawn for a classed item removed or
no longer classed (R41). -/
def tagChange (before after : Option Item) (s : State) : State :=
  match after.bind (fun i => i.cls.map (fun c => presentTag i c)) with
  | some t => queueTag t s
  | none =>
    match before.bind (fun i => i.cls.map (fun c => withdrawnTag s.link.tagged i c)) with
    | some t => queueTag t s
    | none => s

/-- The effects every accepted change to the item list has on the other blocks: its TAG, the dirty mark, the
SHARE cause and item activity, in the order of R113 rule 3 (R41). -/
def itemEffects (before after : Option Item) (s : State) : State :=
  activity (shareCause (markDirty (tagChange before after s)))

/-- A record is added at the end of the list (R21, R41). -/
def addRecord (i : Item) (s : State) : State :=
  itemEffects none (some i) (s.setStowage { s.stowage with items := s.stowage.items ++ [i] })

/-- A record is replaced in its place; MOVE entries are voided when it leaves PLANNED_IN (R21, R41, R48). One replaced
by its like counts as a change too (DESIGN CHOICE, log 47). -/
def changeRecord (i : Item) (s : State) : State :=
  let before := findItem i.number s.stowage.items
  let s := s.setStowage { s.stowage with items := replaceItem i s.stowage.items }
  let s := if before.any (fun b => decide (b.state = .plannedIn)) && decide (i.state ≠ .plannedIn) then
    s.setTrial (voidMoves i.number s.trial) else s
  itemEffects before (some i) s

/-- A record is removed; MOVE entries that name it are voided (R21, R41, R48, R118). -/
def removeRecord (n : Nat) (s : State) : State :=
  let before := findItem n s.stowage.items
  let rotation := match placeOf n s.stowage.items with
    | none => s.link.rotation
    | some j => s.link.rotation.map (pointerAfterRemoval j)
  let s := s.setStowage { s.stowage with items := removeItem n s.stowage.items }
  let s := (s.setTrial (voidMoves n s.trial)).setLink { s.link with rotation := rotation }
  itemEffects before none s

/-! ### The panel port (R187, R188) -/

/-- A response is formed (R187). -/
def respond (code : Nat) (seq : Byte) (result : ResultCode) (body : ResponseBody) (s : State) : State :=
  s.setPanel { s.panel with out := s.panel.out ++ [⟨code, seq, result, body⟩] }

/-- A request is in progress until its response is formed (R187). -/
def holdRequest (code : Nat) (seq : Byte) (s : State) : State :=
  s.setPanel { s.panel with inProgress := some ⟨code, seq⟩ }

/-- The request in progress is answered, if there is one (R187); also while a detected reset is pending (DESIGN CHOICE,
log 21). -/
def answerHeld (result : ResultCode) (body : ResponseBody) (s : State) : State :=
  match s.panel.inProgress with
  | none => s
  | some p => s.setPanel ⟨none, s.panel.out ++ [⟨p.code, p.seq, result, body⟩]⟩

/-- The requests each station state admits (R188). -/
def admittedIn (st : StationState) (code : Nat) : Bool :=
  match st with
  | .start | .halt => decide (code = 19) || decide (code = 26)
  | .listen => decide (code ≠ 14)
  | .run | .quiet => true
  | .fault => decide (code = 18) || decide (code = 19) || decide (code = 26)

/-- A request record that passes its record check: an activity event, then BUSY, STATE, or its owning block
(R119, R187, R188). None is taken while a detected reset is pending (R193). -/
def request (code : Nat) (seq : Byte) (owner : State → State) (s : State) : State :=
  if takesInputs s then
    let s := activity s
    if s.panel.inProgress.isSome then respond code seq .busy .empty s
    else if admittedIn s.station.state code then owner s
    else respond code seq .state .empty s
  else s

/-! ### Retained memory (R38, R187; log 9) -/

/-- The write in progress is complete: the contents and their check stand and the waiting response is formed, also
while a detected reset is pending (R187, R194; DESIGN CHOICE, log 21). -/
def completeWrite (s : State) : State :=
  match s.memory.writing with
  | none => s
  | some w =>
    let s := s.setMemory (retainedWhole w.contents)
    match w.response with
    | none => s
    | some r => s.setPanel ⟨none, s.panel.out ++ [r]⟩

/-- The item list and the journal as they now stand begin to be written as one whole, after the write before
it; a response given waits for the write. -/
def beginWrite (response : Option Response) (s : State) : State :=
  let s := completeWrite s
  s.setMemory { s.memory with writing := some ⟨⟨s.stowage.items, s.journal⟩, response⟩ }

/-- A request whose owner uses the item list of another block: a write of the list that is in progress, which no request
waits for, is complete before the owner acts (R38; log 9). -/
def requestUsingList (code : Nat) (seq : Byte) (owner : State → State) (s : State) : State :=
  request code seq (fun u => owner (completeWrite u)) s

/-- An accepted request whose change is being written: its response waits (R187). -/
def acceptWrite (code : Nat) (seq : Byte) (body : ResponseBody) (s : State) : State :=
  holdRequest code seq (beginWrite (some ⟨code, seq, .accepted, body⟩) s)

/-! ### The journal (R182, R183) -/

/-- The write bank. -/
def writeBank (j : Journal) : List JournalRecord := if j.writeA then j.bankA else j.bankB

/-- The read bank. -/
def readBank (j : Journal) : List JournalRecord := if j.writeA then j.bankB else j.bankA

/-- The journal with its write bank replaced. -/
def setWriteBank (j : Journal) (b : List JournalRecord) : Journal :=
  if j.writeA then { j with bankA := b } else { j with bankB := b }

/-- The journal takes another record: its write bank holds fewer than 32. -/
def journalRoom (s : State) : Bool := decide ((writeBank s.journal).length < 32)

/-- A record is offered: it is written to the write bank, or JOURNAL_FULL is latched (R182). -/
def offerRecord (r : JournalRecord) (s : State) : State :=
  if journalRoom s then s.setJournal (setWriteBank s.journal (writeBank s.journal ++ [r]))
  else latch .journalFull s

/-- The journal record of an item summary, with the time of recording (R181, R182). -/
def journalOf (station : Nat) (b : DoneBody) (now : Nat) : JournalRecord :=
  { station := station, claim := b.claim, item := b.item, label := b.label, ending := b.ending, mass := b.mass
    position := b.position, comp := b.comp, cls := b.cls, time := roundDiv now 1000 }

/-- The item summary of a record (R36). -/
def summaryOf (claim : Nat) (ending : Ending) (i : Item) (position : Option Point) : DoneBody :=
  ⟨claim, ending, i.number, i.label, i.mass, i.comp, i.cls, position⟩

/-- An item movement ends: its DONE is queued and its summary offered to the journal (R36, R182). -/
def endMovement (b : DoneBody) (s : State) : State :=
  offerRecord (journalOf (s.ownNumber.getD 0) b s.now) (queueFixed (.done b) s)

/-! ### The own claim -/

/-- The own claim unit after a claim ends: no record, no times, no marks (R129, R136, R137). -/
def claimEnded (c : ClaimUnit) : ClaimUnit :=
  { c with
    state := .none, record := none, holdExpiry := none, backoffExpiry := none, commitTime := none
    overdue := false, conflict := false, pending := false }

/-- A change of the own claim state: dirty mark, SHARE cause, overload mark cleared outside COMMITTED, quiet
operation looked at, permits evaluated (R55, R115, R119, R153, R154). -/
def changeClaim (c : ClaimUnit) (s : State) : State :=
  let s := markDirty (s.setClaim c)
  let s := if c.state = .committed then s else s.setCrane { s.crane with overload := false }
  evalPermits (watchQuiet (shareCause s))

/-- The own claim record as it stands: the in-base mark is set while the named item is PLANNED_OUT (R123). -/
def claimNow (items : List Item) (c : ClaimRecord) : ClaimRecord :=
  { c with source := c.source.map (fun src => { src with
      inBase := (findItem c.item items).any (fun i => decide (i.state = .plannedOut)) }) }

/-! ### Pump outputs (R172, R173) -/

/-- The effective demand (R172). -/
def effectiveDemand (p : Pump) : Demand :=
  if p.auto && decide (p.autoDemand ≠ .none) then p.autoDemand else p.manualDemand

/-- One output: its state, its off time, and the moment its dead interval ran out. -/
structure Output where
  out : OutState
  off : Nat
  due : Option Nat
  deriving DecidableEq, Repr

/-- PUMP_PS. -/
def psOutput (p : Pump) : Output := ⟨p.ps, p.offPs, p.duePs⟩

/-- PUMP_SP. -/
def spOutput (p : Pump) : Output := ⟨p.sp, p.offSp, p.dueSp⟩

/-- An output its direction's demand does not ask for: INACTIVE, with its off time set when it was ACTIVE. One whose
dead interval ran out at this very moment counts as still WAITING, so its off time stands (R173; log 45). -/
def stopOutput (now : Nat) (o : Output) : Output :=
  ⟨.inactive, if o.out = .active ∧ o.due ≠ some now then now else o.off, none⟩

/-- An output its direction's demand asks for, given the other, once stopped, and the dead interval in ms (R173). -/
def startOutput (now dead : Nat) (o other : Output) : Output :=
  if o.out = .active then o
  else if other.out = .inactive ∧ other.off + dead ≤ now then
    ⟨.active, o.off, if o.out = .waiting then some (other.off + dead) else none⟩
  else ⟨.waiting, o.off, none⟩

/-- The pump controller with both outputs given. -/
def withOutputs (p : Pump) (a b : Output) : Pump :=
  { p with ps := a.out, offPs := a.off, duePs := a.due, sp := b.out, offSp := b.off, dueSp := b.due }

/-- The outputs are evaluated: the one not asked for first, the one asked for second (R173). -/
def outputsFor (now dead : Nat) (p : Pump) : Pump :=
  match effectiveDemand p with
  | .none => withOutputs p (stopOutput now (psOutput p)) (stopOutput now (spOutput p))
  | .ps =>
    let b := stopOutput now (spOutput p)
    withOutputs p (startOutput now dead (psOutput p) b) b
  | .sp =>
    let a := stopOutput now (psOutput p)
    withOutputs p a (startOutput now dead (spOutput p) a)

/-- The dead interval, ms (R13, R173). -/
def deadInterval (s : State) : Nat := s.pumpData.deadSteps.toNat * 500

/-- Quiet operation as it stands, where an output is about to act on it (R119, R121). -/
def quietNow (s : State) : Option QuietBefore :=
  if s.station.state = .run ∨ s.station.state = .quiet then
    some ⟨s.station.state, s.station.since, s.station.quietStart, decide (.wake ∈ s.report.latched)⟩
  else none

/-- A wake is taken back whose SHARE has not been formed: QUIET stands as it did, with no WAKE of it and no placeholder that
it alone queued (R121, R173; log 45). -/
def unwake (b : QuietBefore) (s : State) : State :=
  let s := s.setStation { s.station with state := .quiet, since := b.since, quietStart := b.quietStart }
  let s := s.setLink { s.link with placeholder := !s.link.wakeCause, wakeCause := false }
  if b.wake then s
  else evalAlarm (s.setReport { s.report with latched := s.report.latched.filter (fun k => decide (k ≠ .wake)) })

/-- What an output did to quiet operation that became ACTIVE at the moment its dead interval ran out is taken back: the output
is stopped at that same moment, so it did not become ACTIVE first. What an activity event of that moment restarted or woke
stands, as does a wake whose SHARE has been formed (R119, R121, R173; logs 45, 53). -/
def takeBack (s : State) : State :=
  match s.station.quietBefore with
  | none => s
  | some b =>
    let s := s.setStation { s.station with quietBefore := none }
    if s.station.state ≠ .run then s
    else if b.state = .run then s.setStation { s.station with quietStart := b.quietStart }
    else if s.link.placeholder then unwake b s
    else s

/-- The outputs are evaluated with a pump state given, and quiet operation looked at. One that becomes ACTIVE acts on it at
once; one that is stopped at the moment its dead interval ran out has not become ACTIVE (R119, R121, R173; log 45). -/
def evalOutputs (p : Pump) (s : State) : State :=
  let q := outputsFor s.now (deadInterval s) p
  let t := s.setPump q
  if justStarted s.now p = justStarted s.now q then watchQuiet t
  else if justStarted s.now p then watchQuiet (takeBack t)
  else watchQuiet (t.setStation { t.station with quietBefore := quietNow s })

/-! ### The frame-check window (R98) -/

/-- A frame fails the frame check: FRAME_CHECK is latched and the window opens at the own timer's reading (R98,
R107). -/
def frameFailure (s : State) : State :=
  evalClean (latch .frameCheck (s.setView { s.view with failureAt := some s.now, windowOpen := true }))

/-! ### A reset (R193, R194) -/

/-- A SLUNG item becomes UNRESOLVED at a reset (R38). -/
def resetItem (i : Item) : Item :=
  if i.state = .slung then { i with state := .unresolved, direction := none } else i

/-- What the retained check leaves in retained memory at the start of START, and its result: PASSED where the check
computed over the contents is the stored one (R194). -/
def retainedAtStart (m : RetainedMemory) : RetainedContents × Bool :=
  if retainedPasses m then (⟨m.contents.items.map resetItem, m.contents.journal⟩, true)
  else (⟨[], .cleared⟩, false)

/-- A line after a reset: undriven, with no filtered state; its raw level is the pin's (R160, log 12). -/
def resetLine (l : LineInput) : LineInput := ⟨l.raw, 0, false⟩

/-- A reset takes place: every block at its reset values, its cause recorded, START entered with the own timer at
0, the retained check made (R193, R194). The queue of waiting commands and the output logs are outside. -/
def resetWith (cause : ResetCause) (s : State) : State :=
  let kept := retainedAtStart s.memory
  { pending := s.pending
    station := { State.reset.station with cause := cause, retainedPassed := kept.2 }
    power := State.reset.power
    table := .cleared
    stowage := ⟨kept.1.items, [], false, none⟩
    trial := []
    solver := .cleared
    view := .cleared
    link := .cleared s.link.draws s.link.out
    claim := .cleared
    sensor := .cleared
    crane := .cleared
    lines := ⟨false, s.lines.inputs.map resetLine, none⟩
    pump := .cleared
    report := .cleared
    journal := kept.1.journal
    memory := retainedWhole kept.1
    panel := ⟨none, s.panel.out⟩ }

end Sys2Proof.Machine
end

