-- ==== Sys2Proof/Machine/Stowage.lean ====
section
/-! DEFINITION. The stowage list unit: the requests of chapter 2 (R25 to R42), picks and landings of the claimed
item (R31 to R33), and the classed-item map (R26, R27). -/

namespace Sys2Proof.Machine

/-- The station is a TANK station, which refuses every request of chapters 2 and 3 with ROLE (R25, R43). -/
def atTank (s : State) : Bool := decide (s.role = .tank)

/-- The result of a request whose body does not fit: ROLE comes before RANGE (R25, R186). -/
def misfit (s : State) : ResultCode := if atTank s then .role else .range

/-- An item that would be classed while the map is incomplete (R27). -/
def mapBlocks (s : State) (cls : Option Nat) : Bool := cls.isSome && s.stowage.mapIncomplete

/-! ### Planning requests (R28 to R30) -/

/-- The record ADD ITEM makes (R28). -/
def newItem (n : Nat) (a : ItemArgs) : Item :=
  { number := n, label := a.label, mass := a.mass, planned := a.pos, comp := a.comp, length := a.length
    breadth := a.breadth, cls := a.cls, state := .plannedIn, direction := none, stowed := none
    landing := none }

/-- ADD ITEM's refusal, in R25's order. -/
def addItemRefusal (a : ItemArgs) (s : State) : Option ResultCode :=
  (firstRefusal [(atTank s, .role), (!itemArgsInRange s a, .range),
      (decide (64 ≤ s.stowage.items.length), .listFull), (mapBlocks s a.cls, .mapFull)]).or <|
    (placementRefusal s a.pos a.comp a.mass a.length a.breadth).or
      (firstRefusal [(segregated s none a.cls a.pos a.comp, .segregation)])

/-- ADD ITEM as its owner takes it (R25, R28). -/
def addItemOwner (seq : Byte) (args : Option ItemArgs) (s : State) : State :=
  match args with
  | none => respond 1 seq (misfit s) .empty s
  | some a =>
    match addItemRefusal a s with
    | some r => respond 1 seq r .empty s
    | none =>
      let n := lowestFree s.stowage.items
      acceptWrite 1 seq (.itemNumber n) (addRecord (newItem n a) s)

/-- ADD_ITEM (R28). -/
def execAddItem (dt : Nat) (seq : Byte) (args : Option ItemArgs) (s : State) : Answer :=
  .next (request 1 seq (addItemOwner seq args) (elapse dt s))

/-- The record AMEND ITEM leaves: every field carried replaces the record's (R29). -/
def amendedItem (i : Item) (a : ItemArgs) : Item :=
  { i with
    label := a.label, mass := a.mass, planned := a.pos, comp := a.comp, length := a.length
    breadth := a.breadth, cls := a.cls }

/-- AMEND ITEM's refusal for a record found, from ITEM_STATE on (R25, R29). -/
def amendRefusal (i : Item) (a : ItemArgs) (s : State) : Option ResultCode :=
  (firstRefusal [(decide (i.state ≠ .plannedIn), .itemState), (underClaim s i.number, .claimActive),
      (mapBlocks s a.cls, .mapFull)]).or <|
    (placementRefusal s a.pos a.comp a.mass a.length a.breadth).or
      (firstRefusal [(segregated s (some i.number) a.cls a.pos a.comp, .segregation)])

/-- AMEND ITEM as its owner takes it (R25, R29). -/
def amendItemOwner (seq : Byte) (args : Option AmendArgs) (s : State) : State :=
  match args with
  | none => respond 2 seq (misfit s) .empty s
  | some a =>
    match firstRefusal [(atTank s, .role), (!(itemInRange a.item && itemArgsInRange s a.fields), .range)] with
    | some r => respond 2 seq r .empty s
    | none =>
      match findItem a.item s.stowage.items with
      | none => respond 2 seq .unknownItem .empty s
      | some i =>
        match amendRefusal i a.fields s with
        | some r => respond 2 seq r .empty s
        | none => acceptWrite 2 seq .empty (changeRecord (amendedItem i a.fields) s)

/-- AMEND_ITEM (R29). -/
def execAmendItem (dt : Nat) (seq : Byte) (args : Option AmendArgs) (s : State) : Answer :=
  .next (request 2 seq (amendItemOwner seq args) (elapse dt s))

/-- A request that carries one item number: its refusals up to UNKNOWN_ITEM, then what the record decides
(R25). -/
def withItem (code : Nat) (seq : Byte) (item : Option Nat) (act : Item → State → State) (s : State) : State :=
  match item with
  | none => respond code seq (misfit s) .empty s
  | some n =>
    match firstRefusal [(atTank s, .role), (!itemInRange n, .range)] with
    | some r => respond code seq r .empty s
    | none =>
      match findItem n s.stowage.items with
      | none => respond code seq .unknownItem .empty s
      | some i => act i s

/-- MARK OUT on a record (R30). -/
def markOutOn (seq : Byte) (i : Item) (s : State) : State :=
  match firstRefusal [(decide (i.state ≠ .stowed), .itemState), (underClaim s i.number, .claimActive)] with
  | some r => respond 3 seq r .empty s
  | none => acceptWrite 3 seq .empty (changeRecord { i with state := .plannedOut } s)

/-- MARK_OUT (R30). -/
def execMarkOut (dt : Nat) (seq : Byte) (item : Option Nat) (s : State) : Answer :=
  .next (request 3 seq (withItem 3 seq item (markOutOn seq)) (elapse dt s))

/-- CANCEL ITEM on a record (R30). -/
def cancelOn (seq : Byte) (i : Item) (s : State) : State :=
  match firstRefusal [(decide (i.state ≠ .plannedIn) && decide (i.state ≠ .plannedOut), .itemState),
      (underClaim s i.number, .claimActive)] with
  | some r => respond 4 seq r .empty s
  | none =>
    if i.state = .plannedIn then acceptWrite 4 seq .empty (removeRecord i.number s)
    else acceptWrite 4 seq .empty (changeRecord { i with state := .stowed } s)

/-- CANCEL_ITEM (R30). -/
def execCancelItem (dt : Nat) (seq : Byte) (item : Option Nat) (s : State) : Answer :=
  .next (request 4 seq (withItem 4 seq item (cancelOn seq)) (elapse dt s))

/-! ### Direct moves and resolution (R37, R39) -/

/-- A record stowed at a position and compartment, its direction and landing point discarded (R35, R37, R39). -/
def stowedAt (i : Item) (p : Point) (comp : Nat) : Item :=
  { i with state := .stowed, stowed := some p, comp := comp, direction := none, landing := none }

/-- The segregation check of cargo already in place: a failure latches SEGREGATION (R25). -/
def reportSegregation (i : Item) (p : Point) (comp : Nat) (s : State) : State :=
  latchIf (segregated s (some i.number) i.cls p comp) .segregation s

/-- STOW DIRECT on a record (R37). -/
def stowDirectOn (seq : Byte) (pos : Option Point) (comp : Option Nat) (i : Item) (s : State) : State :=
  let p := pos.getD i.planned
  let c := comp.getD i.comp
  match (firstRefusal [(decide (i.state ≠ .plannedIn), .itemState), (underClaim s i.number, .claimActive)]).or
      (placementRefusal s p c i.mass i.length i.breadth) with
  | some r => respond 5 seq r .empty s
  | none =>
    let j := stowedAt i p c
    acceptWrite 5 seq .empty (reportSegregation j p c (changeRecord j
      (endMovement (summaryOf 0 .shoreStowed j (some p)) s)))

/-- STOW DIRECT as its owner takes it (R25, R37; a position without a compartment is log 28). -/
def stowDirectOwner (seq : Byte) (args : Option StowArgs) (s : State) : State :=
  match args with
  | none => respond 5 seq (misfit s) .empty s
  | some a =>
    if atTank s then respond 5 seq .role .empty s
    else if placeInRange s a.pos a.comp then
      withItem 5 seq (some a.item) (stowDirectOn seq a.pos a.comp) s
    else respond 5 seq .range .empty s

/-- STOW_DIRECT (R37). -/
def execStowDirect (dt : Nat) (seq : Byte) (args : Option StowArgs) (s : State) : Answer :=
  .next (request 5 seq (stowDirectOwner seq args) (elapse dt s))

/-- DISCHARGE DIRECT on a record (R37). -/
def dischargeOn (seq : Byte) (i : Item) (s : State) : State :=
  match firstRefusal [(decide (i.state ≠ .plannedOut), .itemState), (underClaim s i.number, .claimActive)] with
  | some r => respond 6 seq r .empty s
  | none =>
    acceptWrite 6 seq .empty (removeRecord i.number
      (endMovement (summaryOf 0 .shoreDischarged i none) s))

/-- DISCHARGE_DIRECT (R37). -/
def execDischargeDirect (dt : Nat) (seq : Byte) (item : Option Nat) (s : State) : Answer :=
  .next (request 6 seq (withItem 6 seq item (dischargeOn seq)) (elapse dt s))

/-- RESOLVE ITEM's choice carries arguments in range (R25, R39). -/
def choiceInRange (s : State) : ResolveChoice → Bool
  | .stow (some p) (some c) => placeInRange s (some p) (some c)
  | .stow _ _ => false
  | .plan | .remove => true

/-- RESOLVE ITEM on a record (R39). -/
def resolveOn (seq : Byte) (choice : ResolveChoice) (i : Item) (s : State) : State :=
  if i.state ≠ .unresolved then respond 7 seq .itemState .empty s
  else
    match choice with
    | .stow pos comp =>
      let p := pos.getD i.planned
      let c := comp.getD i.comp
      match placementRefusal s p c i.mass i.length i.breadth with
      | some r => respond 7 seq r .empty s
      | none =>
        let j := stowedAt i p c
        acceptWrite 7 seq .empty (reportSegregation j p c (changeRecord j s))
    | .plan => acceptWrite 7 seq .empty (changeRecord { i with state := .plannedIn } s)
    | .remove => acceptWrite 7 seq .empty (removeRecord i.number s)

/-- RESOLVE ITEM as its owner takes it (R25, R39). -/
def resolveItemOwner (seq : Byte) (args : Option ResolveArgs) (s : State) : State :=
  match args with
  | none => respond 7 seq (misfit s) .empty s
  | some a =>
    if atTank s then respond 7 seq .role .empty s
    else if choiceInRange s a.choice then withItem 7 seq (some a.item) (resolveOn seq a.choice) s
    else respond 7 seq .range .empty s

/-- RESOLVE_ITEM (R39). -/
def execResolveItem (dt : Nat) (seq : Byte) (args : Option ResolveArgs) (s : State) : Answer :=
  .next (request 7 seq (resolveItemOwner seq args) (elapse dt s))

/-! ### LIST ITEMS (R42) -/

/-- LIST ITEMS as its owner takes it (R25, R42). -/
def listItemsOwner (seq : Byte) (index : Option Nat) (s : State) : State :=
  match index with
  | none => respond 8 seq (misfit s) .empty s
  | some n =>
    match firstRefusal [(atTank s, .role), (!(decide (1 ≤ n) && decide (n ≤ 64)), .range)] with
    | some r => respond 8 seq r .empty s
    | none =>
      respond 8 seq .accepted (.items s.stowage.items.length ((s.stowage.items.drop (n - 1)).take 8)) s

/-- LIST_ITEMS (R42). -/
def execListItems (dt : Nat) (seq : Byte) (index : Option Nat) (s : State) : Answer :=
  .next (request 8 seq (listItemsOwner seq index) (elapse dt s))

/-! ### SET DOWN (R34 to R36) -/

/-- The target of a SET DOWN (R34). -/
def setDownTarget (item : Option Nat) (s : State) : Option Item :=
  match item with
  | some n => findItem n s.stowage.items
  | none =>
    if s.claim.state = .committed then
      s.claim.record.bind (fun c => findItem c.item s.stowage.items)
    else
      match s.stowage.items.filter (fun i => decide (i.state = .landed)) with
      | [i] => some i
      | _ => none

/-- The target is named by the own COMMITTED claim (R35). -/
def committedFor (s : State) (i : Item) : Bool := decide (s.claim.state = .committed) && underClaim s i.number

/-- The claim number a SET DOWN's summary carries (R35). -/
def setDownClaim (s : State) (i : Item) : Nat :=
  if committedFor s i then (s.claim.record.map (·.number)).getD 0 else 0

/-- The own compartment of lowest id whose bounds contain a point (R35). -/
def compartmentAt (s : State) (p : Point) : Option Nat :=
  (s.ownCompartments.find? (fun q => insideBounds q.2 p)).map (·.1)

/-- Where a LANDED aboard target is to stow: the request's place, the planned place of an INBOUND item, or the
landing point of an OUTBOUND one in the compartment that contains it (R35). -/
def setDownPlace (s : State) (i : Item) (pos : Option Point) (comp : Option Nat) : Option (Point × Nat) :=
  match pos, comp with
  | some p, some c => some (p, c)
  | _, _ =>
    if i.direction = some .outbound then
      i.landing.bind (fun l => (compartmentAt s l.point).map (fun c => (l.point, c)))
    else some (i.planned, i.comp)

/-- The claim that names the target ends with the set-down (R136). -/
def endCommitted (ends : Bool) (s : State) : State :=
  if ends then changeClaim (claimEnded s.claim) s else s

/-- A target LANDED aboard stows at a place that passed its checks (R35, R36). -/
def stowTarget (i : Item) (p : Point) (c : Nat) (s : State) : State :=
  let j := stowedAt i p c
  let ending : Ending := if i.direction = some .outbound then .restowed else .stowed
  endCommitted (committedFor s i) (reportSegregation j p c (changeRecord j
    (endMovement (summaryOf (setDownClaim s i) ending j (some p)) s)))

/-- A target LANDED ashore returns to the plan, INBOUND, or is discharged, OUTBOUND (R35, R36). -/
def leaveTarget (i : Item) (s : State) : State :=
  if i.direction = some .outbound then
    endCommitted (committedFor s i) (removeRecord i.number
      (endMovement (summaryOf (setDownClaim s i) .discharged i none) s))
  else
    let j := { i with state := .plannedIn, direction := none, landing := none }
    endCommitted (committedFor s i) (changeRecord j
      (endMovement (summaryOf (setDownClaim s i) .returned j none) s))

/-- A SET DOWN whose place arguments are in range: its refusal, or the state after it with the retained write
still to begin (R25, R34, R35). -/
def setDownEffect (item : Option Nat) (pos : Option Point) (comp : Option Nat) (s : State) :
    ResultCode ⊕ State :=
  match setDownTarget item s with
  | none => .inl .unknownItem
  | some i =>
    match firstRefusal [(decide (i.state = .slung), .loaded), (decide (i.state ≠ .landed), .itemState),
        (underClaim s i.number && decide (s.claim.state ≠ .committed), .claimActive)] with
    | some r => .inl r
    | none =>
      if i.landing.any (·.aboard) then
        match setDownPlace s i pos comp with
        | none => .inl .outOfCompartment
        | some (p, c) =>
          match placementRefusal s p c i.mass i.length i.breadth with
          | some r => .inl r
          | none => .inr (stowTarget i p c s)
      else .inr (leaveTarget i s)

/-- SET DOWN as its owner takes it (R25, R34, R35). -/
def setDownOwner (seq : Byte) (args : Option SetDownArgs) (s : State) : State :=
  if s.role ≠ .crane then respond 16 seq .role .empty s
  else
    match args with
    | none => respond 16 seq .range .empty s
    | some a =>
      if placeInRange s a.pos a.comp && a.item.all itemInRange then
        match setDownEffect a.item a.pos a.comp s with
        | .inl r => respond 16 seq r .empty s
        | .inr t => acceptWrite 16 seq .empty t
      else respond 16 seq .range .empty s

/-- SET_DOWN (R35). -/
def execSetDown (dt : Nat) (seq : Byte) (args : Option SetDownArgs) (s : State) : Answer :=
  .next (request 16 seq (setDownOwner seq args) (elapse dt s))

/-- A SETDOWN_BUTTON activation in a state that admits SET DOWN: an activity event, then a SET DOWN that carries
neither item nor position and has no response (R34, R119, R161). -/
def setDownButton (s : State) : State :=
  if admittedIn s.station.state 16 then
    let s := activity s
    match setDownEffect none none none s with
    | .inl _ => s
    | .inr t => beginWrite none t
  else s

/-! ### Picks and landings (R31 to R33, R38) -/

/-- The record after a pick under the own COMMITTED claim, none where the pick leaves it unchanged (R31, R33). -/
def pickedItem (i : Item) : Option Item :=
  match i.state with
  | .plannedIn => some { i with state := .slung, direction := some .inbound }
  | .plannedOut => some { i with state := .slung, direction := some .outbound, stowed := none }
  | .landed => some { i with state := .slung, landing := none }
  | _ => none

/-- A pick passed to the stowage list unit for the item the own COMMITTED claim names (R31, R33). -/
def pickItem (s : State) : State :=
  match (s.claim.record.bind (fun c => findItem c.item s.stowage.items)).bind pickedItem with
  | none => s
  | some j => beginWrite none (changeRecord j s)

/-- A landing passed to the stowage list unit with the last loaded point (R32). -/
def landItem (p : Point) (s : State) : State :=
  match s.stowage.items.find? (fun i => decide (i.state = .slung)) with
  | none => s
  | some i =>
    beginWrite none (changeRecord
      { i with state := .landed, landing := some ⟨p, insideHull s.img.particulars p⟩ } s)

/-! ### The classed-item map (R26, R27) -/

/-- The entry has the key (station, item). -/
def sameKey (station item : Nat) (e : MapEntry) : Bool := decide (e.station = station) && decide (e.item = item)

/-- The fields of a TAG lie in the ranges the map checks (R26). -/
def tagInRange (s : State) (b : TagBody) : Bool :=
  decide (1 ≤ b.cls) && decide (b.cls ≤ 9) && itemInRange b.item && compInRange s b.comp

/-- The map with a new list of entries; the settle time follows the count across 48 (R27). -/
def setMap (entries : List MapEntry) (s : State) : State :=
  let start :=
    if entries.length < 48 then
      if s.stowage.map.length < 48 then s.stowage.settleStart else some s.now
    else none
  s.setStowage { s.stowage with map := entries, settleStart := start }

/-- A TAG as the classed-item map takes it (R26, R27). Its ranges are tested first, also where it is present, its key is not
held and the map holds 48 entries: it then neither latches TAG_MAP_FULL nor makes the map incomplete (DESIGN CHOICE, log 54). -/
def takeTag (source : Nat) (b : TagBody) (s : State) : State :=
  let e : MapEntry := ⟨source, b.item, b.cls, b.x, b.y, b.comp⟩
  let held := s.stowage.map.any (sameKey source b.item)
  if !tagInRange s b then s
  else if b.present then
    if held then
      setMap (s.stowage.map.map (fun o => if sameKey source b.item o then e else o)) s
    else if s.stowage.map.length < 48 then setMap (s.stowage.map ++ [e]) s
    else latch .tagMapFull (s.setStowage { s.stowage with mapIncomplete := true })
  else if held then setMap (s.stowage.map.filter (fun o => !sameKey source b.item o)) s
  else s

/-- MAP_SETTLE_EXPIRY: the map has held fewer than 48 entries for 130 s (R27). -/
def execMapSettleExpiry (dt : Nat) (s : State) : Answer :=
  let s := elapse dt s
  if working s ∧ s.stowage.mapIncomplete ∧ s.stowage.map.length < 48 ∧
      passed (s.stowage.settleStart.map (· + 130000)) s then
    .next (s.setStowage { s.stowage with mapIncomplete := false, settleStart := none })
  else .next s

/-- RETAINED_WRITE_COMPLETE: the write completes as one whole and the waiting response is formed (R38, R187). -/
def execRetainedWriteComplete (dt : Nat) (s : State) : Answer := .next (completeWrite (elapse dt s))

end Sys2Proof.Machine
end

