-- ==== Sys2Proof/Machine/Claims.lean ====
section
/-! DEFINITION. The claim unit: LIFT REQUEST, LIFT ABORT, what a publish does to the own claim, backoff and
overdue (R123 to R139). -/

namespace Sys2Proof.Machine

/-! ### The claim record (R123, R124) -/

/-- The candidate angles of the worst point, in their order (R124). -/
def candidateAngles (a1 a2 : Nat) : List Nat :=
  [a1, a2] ++ [256, 768].filter (fun a => insideSector a1 a2 a)

/-- Whether a later candidate position takes the place of an earlier one: larger |y|, or equal |y| and
positive y against negative (R124). -/
def worseThan (p q : Point) : Bool :=
  decide (q.y.natAbs < p.y.natAbs) || (decide (p.y.natAbs = q.y.natAbs) && decide (q.y < p.y))

/-- The worst point of a sector and max radius, from the crane data (R124). -/
def worstPoint (c : CraneData) (a1 a2 : Nat) (maxRadius : Int) : Point :=
  let at_ := radiusPoint c.pedestalX c.pedestalY maxRadius c.jibHead
  (candidateAngles a1 a2).foldl (fun best a => if worseThan (at_ a) best then at_ a else best) (at_ a1)

/-- The claim number after `n`: from 255 to 1 (R126). -/
def nextClaimNumber (n : Nat) : Nat := if 255 ≤ n then 1 else n + 1

/-- The record formed when a LIFT REQUEST is accepted, with no state field in force (R123, R127). -/
def formClaim (a : LiftArgs) (i : Item) (s : State) : ClaimRecord :=
  { station := s.ownNumber.getD 0, number := s.claim.nextNumber, cls := a.cls, phase := none, item := a.item
    mass := i.mass + s.craneData.rigging, a1 := a.a1, a2 := a.a2, maxRadius := a.maxRadius
    worst := worstPoint s.craneData a.a1 a.a2 a.maxRadius
    source := if i.state = .plannedOut then some ⟨i.mass, i.stowed.getD i.planned, true⟩ else none }

/-! ### LIFT REQUEST (R127) -/

/-- The arguments of LIFT REQUEST lie in their ranges (R127 order 2). -/
def liftArgsInRange (s : State) (a : LiftArgs) : Bool :=
  itemInRange a.item && decide (a.cls ≤ 3) && decide (a.a1 ≤ 1023) && decide (a.a2 ≤ 1023) &&
    within s.craneData.rmin a.maxRadius s.craneData.rmax

/-- LIFT REQUEST's refusal for the record found, in R127's order from ITEM_STATE on. -/
def liftRefusal (i : Item) (s : State) : Option ResultCode :=
  firstRefusal [(decide (i.state ≠ .plannedIn) && decide (i.state ≠ .plannedOut), .itemState),
    (decide (s.craneData.swl < i.mass + s.craneData.rigging), .range),
    (s.crane.held.all (fun h => decide (s.craneData.pick ≤ h.load)), .loaded)]

/-- An accepted LIFT REQUEST: the claim takes its number and moves to PROBING; the response waits for the probe
(R126, R127). -/
def acceptLift (seq : Byte) (a : LiftArgs) (i : Item) (s : State) : State :=
  holdRequest 14 seq (changeClaim
    { s.claim with
      state := .probing, nextNumber := nextClaimNumber s.claim.nextNumber, record := some (formClaim a i s)
      withdrawals := 0, pending := true } s)

/-- LIFT REQUEST as its owner takes it (R127). -/
def liftRequestOwner (seq : Byte) (args : Option LiftArgs) (s : State) : State :=
  if s.role ≠ .crane then respond 14 seq .role .empty s
  else
    match args with
    | none => respond 14 seq .range .empty s
    | some a =>
      match firstRefusal [(!liftArgsInRange s a, .range), (decide (s.claim.state ≠ .none), .claimActive)] with
      | some r => respond 14 seq r .empty s
      | none =>
        match findItem a.item s.stowage.items with
        | none => respond 14 seq .unknownItem .empty s
        | some i =>
          match liftRefusal i s with
          | some r => respond 14 seq r .empty s
          | none => acceptLift seq a i s

/-- LIFT_REQUEST (R127). -/
def execLiftRequest (dt : Nat) (seq : Byte) (args : Option LiftArgs) (s : State) : Answer :=
  .next (requestUsingList 14 seq (liftRequestOwner seq args) (elapse dt s))

/-! ### LIFT ABORT (R137) -/

/-- The own claim ends: NONE, its record, times and marks discarded (R137). -/
def endClaim (s : State) : State := changeClaim (claimEnded s.claim) s

/-- The number of the own claim's record. -/
def claimNumber (s : State) : Nat := (s.claim.record.map (·.number)).getD 0

/-- The abort of a COMMITTED claim, by the state of its item; an item in a state R137's table does not list
is log 27. The response waits for the journal's write, if there is one (R137, R187). -/
def abortCommitted (seq : Byte) (s : State) : State :=
  match s.claim.record.bind (fun c => findItem c.item s.stowage.items) with
  | none => respond 15 seq .itemState .empty s
  | some i =>
    match i.state with
    | .plannedIn | .plannedOut =>
      let t := endClaim (endMovement (summaryOf (claimNumber s) .abandoned i none) s)
      if journalRoom s then acceptWrite 15 seq .empty t else respond 15 seq .accepted .empty t
    | .slung => respond 15 seq .loaded .empty s
    | _ => respond 15 seq .itemState .empty s

/-- LIFT ABORT as its owner takes it (R137, R186). -/
def liftAbortOwner (seq : Byte) (fits : Bool) (s : State) : State :=
  match firstRefusal [(decide (s.role ≠ .crane), .role), (!fits, .range)] with
  | some r => respond 15 seq r .empty s
  | none =>
    match s.claim.state with
    | .none => respond 15 seq .state .empty s
    | .probing | .backoff => respond 15 seq .accepted .empty (endClaim s)
    | .announced => respond 15 seq .accepted .empty (endClaim (queueFixed (.yield (claimNumber s)) s))
    | .committed => abortCommitted seq s

/-- LIFT_ABORT (R137, R186). -/
def execLiftAbort (dt : Nat) (req : BareRequest) (s : State) : Answer :=
  .next (requestUsingList 15 req.seq (liftAbortOwner req.seq req.fits) (elapse dt s))

/-! ### A publish's arrival (R128 to R133) -/

/-- The own claim seen by a published LIFT or probe is the own claim in a state with its number (R128). -/
def seesClaim (s : State) (st : ClaimState) (b : CondBody) : Bool :=
  b.ownSeen.any (fun w => decide (w.state = st) && decide (w.number = some (claimNumber s)))

/-- The own claim's record with a state field. -/
def withPhase (p : Option ClaimPhase) (s : State) : Option ClaimRecord :=
  s.claim.record.map (fun c => { c with phase := p })

/-- A CLAIM carrying the own record is queued, its in-base mark read now (R111, R123). -/
def queueClaim (r : Option ClaimRecord) (s : State) : State :=
  match r with
  | none => s
  | some c => queueFixed (.claim (claimNow s.stowage.items c)) s

/-- The answer to the LIFT REQUEST in progress, when the pending mark is set (R129). -/
def answerLift (pending : Bool) (result : ResultCode) (body : ResponseBody) (s : State) : State :=
  if pending then answerHeld result body s else s

/-- A probe of GREEN or AMBER announces the claim (R129). -/
def announce (s : State) : State :=
  let record := withPhase (some .announced) s
  let t := changeClaim
    { s.claim with
      state := .announced, record := record, holdExpiry := some (s.now + s.holdWindow), pending := false }
    (queueClaim record s)
  answerLift s.claim.pending .announced (.claimNumber (claimNumber s)) t

/-- A withdrawal: to BACKOFF, or at the third to NONE with CLAIM_YIELDED latched (R131). -/
def withdraw (s : State) : State :=
  let n := s.claim.withdrawals + 1
  if n ≤ 2 then
    changeClaim
      { s.claim with
        state := .backoff, record := withPhase none s, withdrawals := n, holdExpiry := none
        backoffExpiry := some (s.now + 250 * s.ownNumber.getD 0) } s
  else latch .claimYielded (changeClaim { claimEnded s.claim with withdrawals := n } s)

/-- A yield from ANNOUNCED: the YIELD frame, then the withdrawal (R131). -/
def yieldClaim (s : State) : State := withdraw (queueFixed (.yield (claimNumber s)) s)

/-- A probe result that concerns the claim (R129). -/
def takeProbe (b : CondBody) (s : State) : State :=
  if verdictAllows b.verdict then announce s
  else if s.claim.pending then
    answerLift true .limit (.probeRefused b.verdict b.passNumber) (endClaim s)
  else withdraw s

/-- The claim commits (R130). -/
def commit (s : State) : State :=
  changeClaim
    { s.claim with
      state := .committed, record := withPhase (some .committed) s, holdExpiry := none
      commitTime := some s.now, overdue := false, conflict := false } s

/-- A LIFT that concerns an ANNOUNCED claim (R130). -/
def takeAnnounced (b : CondBody) (s : State) : State :=
  if verdictAllows b.verdict then
    if s.claim.holdExpiry.all (fun t => decide (t ≤ b.snapshotTime)) then commit s else s
  else yieldClaim s

/-- A LIFT that concerns a COMMITTED claim: the conflict mark (R133). -/
def takeCommitted (b : CondBody) (s : State) : State :=
  if b.verdict = .red then
    if b.included.any (fun n => decide (1 ≤ n.peersCommitted)) then
      latchIf (!s.claim.conflict) .claimConflict (s.setClaim { s.claim with conflict := true })
    else s
  else s.setClaim { s.claim with conflict := false }

/-- The claim unit takes a publish: the probe of a pass that carried one, and the LIFT (R128). -/
def claimArrival (probe lift : Option CondBody) (s : State) : State :=
  match s.claim.state with
  | .none | .backoff => s
  | .probing =>
    match probe with
    | some b => if seesClaim s .probing b then takeProbe b s else s
    | none => s
  | .announced =>
    match lift with
    | some b => if seesClaim s .announced b then takeAnnounced b s else s
    | none => s
  | .committed =>
    match lift with
    | some b => if seesClaim s .committed b then takeCommitted b s else s
    | none => s

/-! ### Claim timers (R132, R134) -/

/-- BACKOFF_EXPIRY: from BACKOFF to PROBING with the record unchanged (R132). -/
def execBackoffExpiry (dt : Nat) (s : State) : Answer :=
  let s := elapse dt s
  if s.claim.state = .backoff ∧ passed s.claim.backoffExpiry s then
    .next (changeClaim { s.claim with state := .probing, backoffExpiry := none, pending := false } s)
  else .next s

/-- The time at which a COMMITTED claim is overdue (R12, R134). -/
def overdueAt (s : State) : Option Nat :=
  s.claim.commitTime.map (· + s.craneData.liftTimeLimit.toNat * 60000)

/-- LIFT_OVERDUE: the overdue mark is set and the event latched, once for each claim (R134). -/
def execLiftOverdue (dt : Nat) (s : State) : Answer :=
  let s := elapse dt s
  if s.claim.state = .committed ∧ s.claim.overdue = false ∧ passed (overdueAt s) s then
    .next (latch .liftOverdue (s.setClaim { s.claim with overdue := true }))
  else .next s

end Sys2Proof.Machine
end

