-- ==== Sys2Proof/Machine/Heel.lean ====
section
/-! DEFINITION. Heel agreement: the comparison and its 10 s filter (R100, R101). -/

namespace Sys2Proof.Machine

/-- The heel of the published ACTUAL record, absent in NOT_YET, VOID and at a GM of zero or less (R101). -/
def actualHeel (s : State) : Option Int :=
  s.solver.actual.body.bind (fun b => b.solved.bind (·.heel))

/-- The outcome of a comparison: true for disagree, none while either value is absent (R100, R101). -/
def heelOutcome (s : State) : Option Bool :=
  match s.crane.heel, actualHeel s with
  | some m, some h => some (decide (s.craneData.heelTolerance.getD 0 < (m - h).natAbs))
  | _, _ => none

/-- The filter after a comparison: it runs while the outcome is not what agreement holds, from the first such
outcome (R100, R101). -/
def filterAfter (agreement : Bool) (outcome : Option Bool) (filter : Option Nat) (now : Nat) : Option Nat :=
  match outcome with
  | none => none
  | some disagree => if disagree = agreement then some (filter.getD now) else none

/-- The comparison of R100, made at a working CRANE station with an inclinometer (R100, R101). -/
def compareHeel (s : State) : State :=
  if s.inclinometer && working s then
    s.setView { s.view with heelFilter := filterAfter s.view.agreement (heelOutcome s) s.view.heelFilter s.now }
  else s

/-- HEEL_FILTER_EXPIRY: agreement changes after 10 s of the filter (R100). -/
def execHeelFilterExpiry (dt : Nat) (s : State) : Answer :=
  let s := elapse dt s
  if s.inclinometer ∧ working s ∧ passed (s.view.heelFilter.map (· + 10000)) s then
    let t := s.setView { s.view with agreement := !s.view.agreement, heelFilter := none }
    .next (evalClean (latchIf s.view.agreement .heelMismatch t))
  else .next s

end Sys2Proof.Machine
end

