-- ==== Sys2Proof/Machine/Pump.lean ====
section
/-! DEFINITION. The pump controller: LEVELS records, the automatic and manual demand, level limits, sensor loss and
the dead interval (R165 to R176). -/

namespace Sys2Proof.Machine

/-! ### LEVELS records (R166, R167) -/

/-- The clamped levels of the own tanks (R166). -/
def clampLevels (s : State) (levels : List Int) : List Int :=
  (s.ownTanks.zip levels).map (fun q => clamp 0 q.1.2.height q.2)

/-- Some tank's mass differs from its mass in the latest SHARE formed by more than the threshold; masses the SHARE
did not carry are not compared (R115; log 33). -/
def tankCause (s : State) : Bool :=
  s.link.shareRef.any (fun r => ((tankTerms s).zip r.tanks).any
    (fun q => decide (s.pumpData.tankThreshold < (q.1.mass - q.2).natAbs)))

/-- A demand that no longer asks for direction `d`. -/
def dropDemand (d o : Demand) : Demand := if o = d then .none else o

/-- The level limits are tested at a record: a running direction whose limit holds is stopped (R174). -/
def testLimits (s : State) : State :=
  let d := effectiveDemand s.pump
  if levelLimit s d then
    latch .pumpLimit (s.setPump { s.pump with
      autoDemand := dropDemand d s.pump.autoDemand, manualDemand := dropDemand d s.pump.manualDemand })
  else s

/-- The sensor port takes an accepted record now (R147, R166). -/
def portFresh (s : State) : State :=
  evalClean (s.setSensor { s.sensor with port := .fresh, lastRecord := some s.now, lostReported := false })

/-- An accepted LEVELS record, in the order of R167. -/
def takeLevels (levels : List Int) (s : State) : State :=
  let before := tankTerms s
  let s := portFresh (s.setPump { s.pump with levels := some (clampLevels s levels), suspended := false })
  let s := if tankCause s then shareCause s else s
  let s := if tankTerms s = before then s else markDirty s
  let s := testLimits s
  evalOutputs s.pump s

/-! ### Automatic demand (R169) -/

/-- The running automatic demand stops at heel `h` (R169). -/
def autoStops (p : PumpData) (d : Demand) (h : Int) : Bool :=
  decide ((h.natAbs : Int) ≤ p.stopBand) || (decide (d = .sp) && decide (h < 0)) ||
    (decide (d = .ps) && decide (0 < h))

/-- The demand that heel `h` starts (R169). -/
def autoStarts (s : State) (h : Int) : Demand :=
  let p := s.pumpData
  let above := fun (k : TankData) (l : Int) => decide (k.minLevel < l)
  let below := fun (k : TankData) (l : Int) => decide (l < k.maxLevel)
  if p.startBand ≤ h ∧ levelTest s p.stbdTank above = true ∧ levelTest s p.portTank below = true then .sp
  else if h ≤ -p.startBand ∧ levelTest s p.portTank above = true ∧ levelTest s p.stbdTank below = true then .ps
  else .none

/-- The automatic demand a publish leaves (R169). -/
def autoDemandAfter (s : State) (heel : Option Int) : Demand :=
  if (s.station.state = .run ∨ s.station.state = .quiet) ∧ s.pump.auto = true ∧ s.pump.suspended = false then
    match heel with
    | none => .none
    | some h =>
      if s.pump.autoDemand = .none ∨ autoStops s.pumpData s.pump.autoDemand h = true then autoStarts s h
      else s.pump.autoDemand
  else .none

/-- The pump controller takes a publish (R169). -/
def pumpArrival (heel : Option Int) (s : State) : State :=
  if s.role = .tank then
    let d := autoDemandAfter s heel
    if d = s.pump.autoDemand then s else evalOutputs { s.pump with autoDemand := d } s
  else s

/-! ### Requests (R170, R171) -/

/-- PUMP MANUAL's refusal for a direction given, in R171's order. -/
def pumpManualRefusal (d : Demand) (s : State) : Option ResultCode :=
  firstRefusal [(decide (d ≠ .none) && decide (s.sensor.port = .lost), .state),
    (decide (d ≠ .none) && levelLimit s d, .limit)]

/-- PUMP MANUAL as its owner takes it (R171). -/
def pumpManualOwner (seq : Byte) (direction : Option Demand) (s : State) : State :=
  if s.role ≠ .tank then respond 24 seq .role .empty s
  else
    match direction with
    | none => respond 24 seq .range .empty s
    | some d =>
      match pumpManualRefusal d s with
      | some r => respond 24 seq r .empty s
      | none => respond 24 seq .accepted .empty (evalOutputs { s.pump with manualDemand := d } s)

/-- PUMP_MANUAL (R171). -/
def execPumpManual (dt : Nat) (seq : Byte) (direction : Option Demand) (s : State) : Answer :=
  .next (request 24 seq (pumpManualOwner seq direction) (elapse dt s))

/-- Automatic mode takes a value; OFF clears the automatic demand and evaluates the outputs (R170). -/
def setAuto (mode : Bool) (s : State) : State :=
  if mode = s.pump.auto then s
  else if mode then s.setPump { s.pump with auto := true }
  else evalOutputs { s.pump with auto := false, autoDemand := .none } s

/-- PUMP AUTO as its owner takes it (R170). -/
def pumpAutoOwner (seq : Byte) (mode : Option Bool) (s : State) : State :=
  if s.role ≠ .tank then respond 25 seq .role .empty s
  else
    match mode with
    | none => respond 25 seq .range .empty s
    | some m => respond 25 seq .accepted .empty (setAuto m s)

/-- PUMP_AUTO (R170). -/
def execPumpAuto (dt : Nat) (seq : Byte) (mode : Option Bool) (s : State) : Answer :=
  .next (request 25 seq (pumpAutoOwner seq mode) (elapse dt s))

/-! ### Sensor loss and the dead interval (R173, R175) -/

/-- The sensor port of a TANK station becomes LOST (R175). -/
def suspendPump (s : State) : State :=
  if s.role = .tank then
    evalOutputs { s.pump with suspended := true, autoDemand := .none, manualDemand := .none } s
  else s

/-- A WAITING output's dead interval has passed (R173). -/
def deadIntervalPassed (s : State) : Bool :=
  let due := fun (own : OutState) (off : Nat) => decide (own = .waiting) && decide (off + deadInterval s ≤ s.now)
  due s.pump.ps s.pump.offSp || due s.pump.sp s.pump.offPs

/-- DEAD_INTERVAL_EXPIRY: the outputs are evaluated when a waiting output's dead interval runs out (R173). -/
def execDeadIntervalExpiry (dt : Nat) (s : State) : Answer :=
  let s := elapse dt s
  if working s ∧ s.role = .tank ∧ deadIntervalPassed s then .next (evalOutputs s.pump s) else .next s

end Sys2Proof.Machine
end

