-- ==== Sys2Proof/Machine/Crane.lean ====
section
/-! DEFINITION. The sensor port, the crane supervisor and the line block's inputs: HOOK records, picks, releases and
the overload mark (R145 to R153), the port's timers (R147, R166), and the filtered lines (R160, R161). -/

namespace Sys2Proof.Machine

/-! ### An accepted HOOK record (R146, R148) -/

/-- The values of a HOOK record as held (R146). -/
def clampHook (c : CraneData) (r : HookRecord) : HookValues :=
  ⟨clamp 0 (2 * c.swl) r.load, r.slew % 1024, clamp c.rmin c.rmax r.radius, clamp 0 c.jibHead r.height⟩

/-- The measured heel after a record (R146). -/
def heelAfter (s : State) (r : HookRecord) : Option Int :=
  if s.inclinometer then (r.heel.map (clamp (-999) 999)).or s.crane.heel else none

/-- Step 1 of R148: the values are held, the port becomes FRESH, and quiet operation sees the hook load. -/
def holdHook (r : HookRecord) (s : State) : State :=
  watchQuiet (portFresh (s.setCrane
    { s.crane with held := some (clampHook s.craneData r), heel := heelAfter s r }))

/-- The held hook load is at or above the pick threshold. -/
def hookLoaded (s : State) : Bool := s.crane.held.any (fun h => decide (s.craneData.pick ≤ h.load))

/-- The held hook load is below the release threshold. -/
def hookReleased (s : State) : Bool := s.crane.held.any (fun h => decide (h.load < s.craneData.release))

/-- Step 2 of R148: the last loaded point (R149). -/
def markLoaded (s : State) : State :=
  if hookLoaded s then s.setCrane { s.crane with lastLoaded := hookPosition s } else s

/-- A pick, by the own claim (R151). -/
def reportPick (s : State) : State :=
  let s := s.setCrane { s.crane with carrying := true }
  if s.claim.state = .committed then pickItem s
  else latch .unclaimedLoad (s.setCrane { s.crane with unclaimed := true })

/-- A release (R152). -/
def reportRelease (s : State) : State :=
  let s := s.setCrane { s.crane with carrying := false, unclaimed := false }
  match s.crane.lastLoaded with
  | none => s
  | some p => landItem p s

/-- Step 3 of R148: the hook state is advanced (R150). -/
def advanceHook (s : State) : State :=
  if s.crane.carrying then if hookReleased s then reportRelease s else s
  else if hookLoaded s then reportPick s
  else s

/-- The load exceeds the claimed mass plus the tolerance, under the own COMMITTED claim (R153). -/
def overloaded (s : State) : Bool :=
  decide (s.claim.state = .committed) && s.claim.record.any (fun c =>
    s.crane.held.any (fun h => decide (c.mass + s.craneData.overloadTol < h.load)))

/-- Step 4 of R148: the overload mark (R153). -/
def evalOverload (s : State) : State :=
  if s.claim.state = .committed then
    latchIf (overloaded s && !s.crane.overload) .claimOverload
      (s.setCrane { s.crane with overload := overloaded s })
  else s

/-- The hook mass or hook position cause against the latest SHARE formed (R115). -/
def hookMoved (c : CraneData) (now ref : HookTerm) : Bool :=
  decide (c.hookMassThreshold < (now.load - ref.load).natAbs) ||
    decide (c.hookPosThreshold < (now.point.x - ref.point.x).natAbs) ||
    decide (c.hookPosThreshold < (now.point.y - ref.point.y).natAbs)

/-- The hook causes of R115, given the own hook term before the record. -/
def hookCause (before : Option HookTerm) (s : State) : Bool :=
  decide (before.isSome ≠ (hookTerm s).isSome) ||
    (match hookTerm s, s.link.shareRef.bind (·.hook) with
      | some now, some ref => hookMoved s.craneData now ref
      | _, _ => false)

/-- Step 6 of R148: the own hook term reaches the link controller and the solver (R115). -/
def handHook (before : Option HookTerm) (s : State) : State :=
  let s := if hookCause before s then shareCause s else s
  if hookTerm s = before then s else markDirty s

/-- An accepted HOOK record, in the order of R148. -/
def takeHook (r : HookRecord) (s : State) : State :=
  let term := hookTerm s
  let heel := s.crane.heel
  let s := evalPermits (evalOverload (advanceHook (markLoaded (holdHook r s))))
  let s := handHook term s
  if s.crane.heel = heel then s else compareHeel s

/-! ### Arrivals at the sensor port (R145, R165; log 6) -/

/-- A record that fails its checks (R145, R165). -/
def discardRecord (s : State) : State :=
  s.setSensor { s.sensor with discarded := min 65535 (s.sensor.discarded + 1) }

/-- A record arrives: the crane supervisor or the pump controller takes it in LISTEN, RUN and QUIET, by the
checks of R145 and R165; a DESK station discards it uncounted. -/
def sensorArrival (bytes : List Byte) (s : State) : State :=
  if working s && takesInputs s then
    match s.role with
    | .desk => s
    | .crane =>
      match hookRecordOf bytes with
      | some r => takeHook r s
      | none => discardRecord s
    | .tank =>
      match levelsOf s.ownTanks.length bytes with
      | some ls => takeLevels ls s
      | none => discardRecord s
  else s

/-- HOOK_RECORD (R148). -/
def execHookRecord (dt : Nat) (bytes : List Byte) (s : State) : Answer :=
  .next (sensorArrival bytes (elapse dt s))

/-- LEVELS_RECORD (R167). -/
def execLevelsRecord (dt : Nat) (bytes : List Byte) (s : State) : Answer :=
  .next (sensorArrival bytes (elapse dt s))

/-- SENSOR_RECORD_DISCARD (R145, R165). -/
def execSensorRecordDiscard (dt : Nat) (bytes : List Byte) (s : State) : Answer :=
  .next (sensorArrival bytes (elapse dt s))

/-! ### The port's timers (R147, R166) -/

/-- The sensor port is used: the station works and is no DESK station. -/
def sensing (s : State) : Bool := working s && decide (s.role ≠ .desk)

/-- SENSOR_HOLDING: 300 ms since the latest accepted record (R147). -/
def execSensorHolding (dt : Nat) (s : State) : Answer :=
  let s := elapse dt s
  if sensing s ∧ s.sensor.port = .fresh ∧ passed (s.sensor.lastRecord.map (· + 300)) s then
    .next (evalPermits (evalClean (s.setSensor { s.sensor with port := .holding })))
  else .next s

/-- The port is to become LOST: 1,300 ms since the latest record, or since the start of LISTEN when there has
been none, once (R147). -/
def sensorLossDue (s : State) : Bool :=
  if s.sensor.port = .lost then
    s.sensor.lastRecord.isNone && !s.sensor.lostReported && passed (s.station.listenAt.map (· + 1300)) s
  else passed (s.sensor.lastRecord.map (· + 1300)) s

/-- SENSOR_LOST: the port becomes LOST and the event is latched; pumping is suspended (R147, R166, R175). -/
def execSensorLost (dt : Nat) (s : State) : Answer :=
  let s := elapse dt s
  if sensing s ∧ sensorLossDue s then
    let t := evalClean (s.setSensor { s.sensor with port := .lost, lostReported := true })
    .next (evalPermits (suspendPump (latch .sensorLost t)))
  else .next s

/-! ### Lines (R160, R161) -/

/-- One line's input is replaced. -/
def setLine (n : Nat) (l : LineInput) (s : State) : State :=
  s.setLines { s.lines with inputs := s.lines.inputs.set (n - 1) l }

/-- LINE_LEVEL_CHANGE: the raw level changes and its 20 ms start (R160). The pin keeps its level whether or not
the line is sampled (log 12). -/
def execLineLevelChange (dt : Nat) (line : Nat) (level : Bool) (s : State) : Answer :=
  let s := elapse dt s
  if 1 ≤ line ∧ line ≤ 12 ∧ (lineInput s line).raw ≠ level then
    .next (setLine line { lineInput s line with raw := level, since := s.now } s)
  else .next s

/-- The filtered state of a line is to change (R160). -/
def filterDue (s : State) (n : Nat) : Bool :=
  lineSampled s n && decide ((lineInput s n).since + 20 ≤ s.now) &&
    decide ((lineInput s n).filtered ≠ lineLevel s n)

/-- What a change of a filtered state sets off (R155, R160, R161). -/
def lineChanged (n : Nat) (s : State) : State :=
  match lineFunction s n with
  | some .localStop => evalPermits s
  | some .setdownButton => if (lineInput s n).filtered then setDownButton s else s
  | _ => s

/-- INPUT_FILTER_EXPIRY: a level that has held for 20 ms becomes the filtered state (R160). It is kept in HALT
too. -/
def execInputFilterExpiry (dt : Nat) (line : Nat) (s : State) : Answer :=
  let s := elapse dt s
  if takesInputs s ∧ filterDue s line then
    .next (lineChanged line (setLine line { lineInput s line with filtered := lineLevel s line } s))
  else .next s

end Sys2Proof.Machine
end

