-- ==== Sys2Proof/Machine/Sums.lean ====
section
/-! DEFINITION. Terms and sums: the own contribution (R40, R62), the included claims of a LIFT or a probe (R65),
and the sums of ACTUAL, LIFT, FINAL and the probe (R61, R64, R66 to R69). -/

namespace Sys2Proof.Machine

/-! ### Terms (R61) -/

/-- What a point term of mass `m` at `x` adds to the section at `xk` (R61). -/
def aftOf (m x xk : Int) : AftSum := if x < xk then ⟨m, m * (xk - x)⟩ else ⟨0, 0⟩

/-- The empty sum over the sections `xs`. -/
def zeroSum (xs : List Int) : Aggregate := ⟨0, 0, 0, 0, 0, xs.map (fun _ => ⟨0, 0⟩)⟩

/-- A point term as an aggregate over the sections `xs` (R61). -/
def pointSum (xs : List Int) (t : PointTerm) : Aggregate :=
  { mass := t.mass, mx := t.mass * t.point.x, my := t.mass * t.point.y, mz := t.mass * t.point.z, fs := t.fsm
    aft := xs.map (aftOf t.mass t.point.x) }

/-- Aft sums are added section by section; a section the second lacks takes nothing, one the first lacks is
not the station's (R61, R110). -/
def addAft : List AftSum → List AftSum → List AftSum
  | [], _ => []
  | a :: as, [] => a :: as
  | a :: as, b :: bs => ⟨a.mass + b.mass, a.moment + b.moment⟩ :: addAft as bs

/-- Two sums added field by field (R61, R69). -/
def addSum (a b : Aggregate) : Aggregate :=
  { mass := a.mass + b.mass, mx := a.mx + b.mx, my := a.my + b.my, mz := a.mz + b.mz, fs := a.fs + b.fs
    aft := addAft a.aft b.aft }

/-- The sum of a list of sums over the sections `xs` (R69). -/
def totalSum (xs : List Int) (ts : List Aggregate) : Aggregate := ts.foldl addSum (zeroSum xs)

/-- A mass at a point, without free surface. -/
def massAt (m : Int) (p : Point) : PointTerm := ⟨m, p, 0⟩

/-- The lightship's aggregate term (R6, R61). -/
def lightshipSum (l : Lightship) : Aggregate :=
  { mass := l.mass, mx := l.mass * l.centre.x, my := l.mass * l.centre.y, mz := l.mass * l.centre.z, fs := 0
    aft := l.aft }

/-! ### Item and trial terms (R40, R52) -/

/-- A signed item mass with the compartment it counts in (R40, R52). -/
structure CompTerm where
  mass : Int
  point : Point
  comp : Nat
  deriving DecidableEq, Repr

/-- What a record adds to the own base (R40). -/
def baseTerm (i : Item) : Option CompTerm :=
  match i.state with
  | .stowed | .plannedOut => some ⟨i.mass, i.stowed.getD i.planned, i.comp⟩
  | .landed =>
    i.landing.bind (fun l => if l.aboard then some ⟨i.mass, l.point, i.comp⟩ else none)
  | .plannedIn | .slung | .unresolved => none

/-- What a record adds to the own planned delta (R40). -/
def deltaTerm (i : Item) : Option CompTerm :=
  match i.state with
  | .plannedOut => some ⟨-i.mass, i.stowed.getD i.planned, i.comp⟩
  | .plannedIn => some ⟨i.mass, i.planned, i.comp⟩
  | .stowed | .landed | .slung | .unresolved => none

/-- The terms trial entries have added so far, and the latest place each moved item was given (R52). -/
structure TrialTerms where
  terms : List CompTerm
  moved : List (Nat × Point × Nat)
  deriving DecidableEq, Repr

/-- An item's current FINAL position and compartment (R52). -/
def finalPlace (i : Item) (moved : List (Nat × Point × Nat)) : Point × Nat :=
  ((moved.find? (fun q => decide (q.1 = i.number))).map (·.2)).getD (i.planned, i.comp)

/-- One trial entry is applied; a VOID entry is skipped (R52). -/
def applyTrial (items : List Item) (t : TrialTerms) : TrialEntry → TrialTerms
  | .add mass pos comp _ _ _ => { t with terms := t.terms ++ [⟨mass, pos, comp⟩] }
  | .move item pos comp voided =>
    if voided then t
    else
      match findItem item items with
      | none => t
      | some i =>
        let old := finalPlace i t.moved
        { terms := t.terms ++ [⟨-i.mass, old.1, old.2⟩, ⟨i.mass, pos, comp⟩]
          moved := (item, pos, comp) :: t.moved }

/-- The terms of a trial stack, from the bottom to the top (R52). -/
def trialTerms (items : List Item) (stack : List TrialEntry) : List CompTerm :=
  (stack.foldl (applyTrial items) ⟨[], []⟩).terms

/-- Item terms as a sum over the sections `xs`. -/
def compSum (xs : List Int) (ts : List CompTerm) : Aggregate :=
  totalSum xs (ts.map (fun t => pointSum xs (massAt t.mass t.point)))

/-! ### The own contribution (R62) -/

/-- The own base: item terms, or at a TANK station one term for each tank (R40, R62). -/
def ownBase (role : Role) (xs : List Int) (items : List Item) (tanks : List PointTerm) : Aggregate :=
  if role = .tank then totalSum xs (tanks.map (pointSum xs)) else compSum xs (items.filterMap baseTerm)

/-- The own planned delta (R40, R62). -/
def ownDelta (xs : List Int) (items : List Item) : Aggregate := compSum xs (items.filterMap deltaTerm)

/-- A hook term as a sum (R61, R62). -/
def hookSum (xs : List Int) (h : HookTerm) : Aggregate := pointSum xs (massAt h.load h.point)

/-! ### Included claims (R65) -/

/-- Whose claim an included claim is (R65, R82). -/
inductive Included
  | ownCommitted | ownAnnounced | peerCommitted | pseudo | outranking
  deriving DecidableEq, Repr

/-- An included claim: its station, mass, worst point and source (R65). -/
structure LiftTerm where
  kind : Included
  station : Nat
  mass : Int
  point : Point
  source : Option ClaimSource
  deriving DecidableEq, Repr

/-- A claim record as an included claim of a station. -/
def liftTerm (kind : Included) (station : Nat) (c : ClaimRecord) : LiftTerm :=
  ⟨kind, station, c.mass, c.worst, c.source⟩

/-- One claim outranks another: a higher class, or the same class and a lower station number (R65). -/
def outranks (c d : ClaimRecord) : Bool :=
  decide (d.cls < c.cls) || (decide (c.cls = d.cls) && decide (c.station < d.station))

/-- The claim of a peer entry that a solution includes, given the own announced claim or candidate of the
solution, if it has one (R63, R65). -/
def peerTerm (announced : Option ClaimRecord) (e : PeerEntry) : Option LiftTerm :=
  match e.claim with
  | some c =>
    if c.phase = some .committed then some (liftTerm .peerCommitted e.station c)
    else if announced.any (outranks c) then some (liftTerm .outranking e.station c)
    else none
  | none =>
    if e.state = .lost then
      e.roll.map (fun r => ⟨.pseudo, e.station, r.envelopeMass, r.envelopePoint, none⟩)
    else none

/-- The own claim a LIFT or a probe includes: the candidate in a probe, else the ANNOUNCED or COMMITTED claim
(R65). -/
def ownTerm (probe : Bool) (w : Snapshot) : Option LiftTerm :=
  match w.claim with
  | none => none
  | some c =>
    match w.claimState with
    | .committed => some (liftTerm .ownCommitted c.station c)
    | .announced => some (liftTerm .ownAnnounced c.station c)
    | .probing => if probe then some (liftTerm .ownAnnounced c.station c) else none
    | .none | .backoff => none

/-- The own claim against which peers' ANNOUNCED claims are ranked (R65). -/
def rankedClaim (probe : Bool) (w : Snapshot) : Option ClaimRecord :=
  match w.claimState with
  | .announced => w.claim
  | .probing => if probe then w.claim else none
  | .none | .backoff | .committed => none

/-- The included claims, the own one first (R65). -/
def includedClaims (probe : Bool) (w : Snapshot) : List LiftTerm :=
  (ownTerm probe w).toList ++ w.peers.filterMap (peerTerm (rankedClaim probe w))

/-- The counts of included claims (R82). -/
def includedCounts (ts : List LiftTerm) : IncludedCounts :=
  let count := fun k => (ts.filter (fun t => decide (t.kind = k))).length
  { committed := count .ownCommitted + count .peerCommitted + count .pseudo
    peersCommitted := count .peerCommitted, ownCommitted := count .ownCommitted, pseudo := count .pseudo
    outranking := count .outranking }

/-- The terms of an included claim: its mass at the worst point, and its source subtracted while it is in base
(R66 items 3 and 5). -/
def claimTerms (t : LiftTerm) : List PointTerm :=
  massAt t.mass t.point ::
    (match t.source with
      | some src => if src.inBase then [massAt (-src.mass) src.point] else []
      | none => [])

/-! ### The three solutions and the probe (R64, R66, R67) -/

/-- What a pass computes from: the parts of the table it needs and its snapshot. -/
structure PassInput where
  role : Role
  number : Nat
  image : TableImage
  owned : List (Nat × Compartment)
  snap : Snapshot
  deriving DecidableEq, Repr

/-- The positions of the check sections (R7). -/
def PassInput.xs (p : PassInput) : List Int := p.image.sections.map (·.x)

/-- Lightship and every held base, own and peers' (R64, R66, R67). -/
def baseSums (p : PassInput) : List Aggregate :=
  [lightshipSum p.image.lightship, ownBase p.role p.xs p.snap.items p.snap.tanks] ++
    p.snap.peers.filterMap (fun e => e.share.map (·.base))

/-- The held hook of a peer entry (R63). -/
def peerHook (e : PeerEntry) : Option HookTerm := e.share.bind (·.hook)

/-- The sums of ACTUAL (R64). -/
def actualSum (p : PassInput) : Aggregate :=
  totalSum p.xs (baseSums p ++ (p.snap.hook.toList ++ p.snap.peers.filterMap peerHook).map (hookSum p.xs))

/-- A station has an included claim. -/
def hasClaim (station : Nat) (ts : List LiftTerm) : Bool := ts.any (fun t => decide (t.station = station))

/-- The hooks of the stations without an included claim (R66 item 4). -/
def liftHooks (p : PassInput) (ts : List LiftTerm) : List HookTerm :=
  (if hasClaim p.number ts then [] else p.snap.hook.toList) ++
    (p.snap.peers.filter (fun e => !hasClaim e.station ts)).filterMap peerHook

/-- The sums of LIFT, or of the probe (R66). -/
def liftSum (p : PassInput) (ts : List LiftTerm) : Aggregate :=
  totalSum p.xs (baseSums p ++ (ts.flatMap claimTerms).map (pointSum p.xs) ++ (liftHooks p ts).map (hookSum p.xs))

/-- The sums of FINAL (R67). -/
def finalSum (p : PassInput) : Aggregate :=
  totalSum p.xs (baseSums p ++ [ownDelta p.xs p.snap.items] ++
    p.snap.peers.filterMap (fun e => e.share.map (·.planned)) ++ [compSum p.xs (trialTerms p.snap.items p.snap.trials)])

/-! ### Compartment masses (R68) -/

/-- The mass of the terms counted in a compartment (R68). -/
def massIn (comp : Nat) (ts : List CompTerm) : Int :=
  ((ts.filter (fun t => decide (t.comp = comp))).map (·.mass)).sum

/-- The item of the own included claim, when its source is subtracted (R68). -/
def removedItem (p : PassInput) (ts : List LiftTerm) : Option Nat :=
  if ts.any (fun t => (decide (t.kind = .ownCommitted) || decide (t.kind = .ownAnnounced)) &&
      t.source.any (·.inBase)) then p.snap.claim.map (·.item) else none

/-- The item terms ACTUAL counts in own compartments (R68). -/
def actualTerms (p : PassInput) : List CompTerm := p.snap.items.filterMap baseTerm

/-- The item terms LIFT counts in own compartments (R68). -/
def liftItemTerms (p : PassInput) (ts : List LiftTerm) : List CompTerm :=
  (p.snap.items.filter (fun i => decide (removedItem p ts ≠ some i.number))).filterMap baseTerm

/-- The item and trial terms FINAL counts in own compartments (R68). -/
def finalTerms (p : PassInput) : List CompTerm :=
  p.snap.items.filterMap baseTerm ++ p.snap.items.filterMap deltaTerm ++ trialTerms p.snap.items p.snap.trials

end Sys2Proof.Machine
end

