-- ==== Sys2Proof/Machine/Stages.lean ====
section
/-! DEFINITION. The arithmetic stages, the checks and the verdict of a solution (R70 to R81), and the four records of
a pass (R82). -/

namespace Sys2Proof.Machine

/-! ### Table range and interpolation (R70, R72) -/

/-- The row `i` of the pair, counted from `n`: the last row but one whose displacement does not exceed Δ (R70). -/
def selectFrom (n : Nat) (delta : Int) : List HullRow → Option (Nat × HullRow × HullRow)
  | a :: b :: rest =>
    match selectFrom (n + 1) delta (b :: rest) with
    | some q => some q
    | none => if a.d ≤ delta then some (n, a, b) else none
  | _ => none

/-- The table range stage: the row pair, none where Δ lies out of the table (R70). -/
def selectRows (rows : List HullRow) (delta : Int) : Option (Nat × HullRow × HullRow) :=
  if delta ≤ lastD rows then selectFrom 0 delta rows else none

/-- One interpolated property (R72). -/
def interpolate (delta : Int) (a b : HullRow) (p : HullRow → Int) : Int :=
  p a + roundDiv ((p b - p a) * (delta - a.d)) (b.d - a.d)

/-- f_k and a_k of a row for section `k` from 0 (R5). -/
def rowPair (k : Nat) (r : HullRow) : RowPair := r.pairs.getD k ⟨0, 0⟩

/-! ### Centres, heel, strength (R71, R74, R76) -/

/-- LCG, TCG, KG and FSC, absent when Δ is less than 1 dt (R71). -/
def centresOf (t : Aggregate) : Option Centres :=
  if 1 ≤ t.mass then
    some ⟨roundDiv t.mx t.mass, roundDiv t.my t.mass, roundDiv t.mz t.mass, roundDiv t.fs t.mass⟩
  else none

/-- The heel, absent when GM is zero or negative (R74). -/
def heelOf (delta my gm : Int) : Option Int :=
  if 0 < gm then some (clamp (-999) 999 (roundDiv (my * 1000) (delta * gm))) else none

/-- The strength quantities of section `k` (R76). -/
def strengthOf (delta : Int) (a b : HullRow) (k : Nat) (w : AftSum) : StrengthValue :=
  let f := interpolate delta a b (fun r => (rowPair k r).f)
  let arm := interpolate delta a b (fun r => (rowPair k r).a)
  let buoyancy := roundDiv (delta * f) 65536
  ⟨w.mass - buoyancy, roundDiv (w.moment - buoyancy * arm) 1000⟩

/-! ### Checks (R77 to R80) -/

/-- The outcome against an upper limit (R77). -/
def upperOutcome (v : Int) (l : Limit) : CheckOutcome :=
  if l.limit < v then .breach else if l.limit - l.band < v then .warn else .ok

/-- The outcome against a lower limit (R77). -/
def lowerOutcome (v : Int) (l : Limit) : CheckOutcome :=
  if v < l.limit then .breach else if v < l.limit + l.band then .warn else .ok

/-- The worse of two outcomes, in the order BREACH, WARN, OK (R77). -/
def worse (a b : CheckOutcome) : CheckOutcome :=
  if a = .breach ∨ b = .breach then .breach else if a = .warn ∨ b = .warn then .warn else .ok

/-- One check's result against its limits in force (R77, R78). -/
def checkOf (name : CheckName) (v : Int) (lower upper : Option Limit) : CheckResult :=
  let low := (lower.map (lowerOutcome v)).getD .ok
  let high := (upper.map (upperOutcome v)).getD .ok
  ⟨name, some v, lower, upper, worse low high⟩

/-- The heel check: BREACH when heel is absent (R78). -/
def heelCheck (heel : Option Int) (l : Limit) : CheckResult :=
  match heel with
  | none => ⟨.heel, none, none, some l, .breach⟩
  | some h => checkOf .heel h.natAbs none (some l)

/-- A strength check, N/A when the strength checks are not judged (R80). -/
def judgeStrength (judged : Bool) (c : CheckResult) : CheckResult :=
  if judged then c else { c with outcome := .na }

/-- The shear check of section `k` (R78, R80). -/
def shearCheck (judged : Bool) (k : Nat) (c : CheckSection) (v : StrengthValue) : CheckResult :=
  judgeStrength judged (checkOf (.shear k) v.sf.natAbs none (some ⟨c.sfLimit, c.sfBand⟩))

/-- The bending check of section `k` (R78, R80). -/
def bendingCheck (judged : Bool) (k : Nat) (c : CheckSection) (v : StrengthValue) : CheckResult :=
  judgeStrength judged
    (checkOf (.bending k) v.bm (some ⟨-c.sagLimit, c.sagBand⟩) (some ⟨c.hogLimit, c.hogBand⟩))

/-- The strength checks, in the order of R78's table and within each row by section: every shear check, then every
bending check (R82). -/
def sectionChecksOf (judged : Bool) (sections : List CheckSection) (values : List StrengthValue) :
    List CheckResult :=
  let ks := (List.range sections.length).zip (sections.zip values)
  ks.map (fun w => shearCheck judged (w.1 + 1) w.2.1 w.2.2) ++
    ks.map (fun w => bendingCheck judged (w.1 + 1) w.2.1 w.2.2)

/-- The limits in force of a solution (R79). -/
structure LimitsInForce where
  gm : Int
  heel : Limit
  deriving DecidableEq, Repr

/-- The limits in force: the stored ones under a clean view, the degraded ones otherwise; the lift heel limit for
LIFT and the probe, the static one for ACTUAL and FINAL (R78, R79). -/
def limitsInForce (p : Particulars) (clean lift : Bool) : LimitsInForce :=
  let less := if clean then 0 else p.degradedHeel
  { gm := p.gmMin + (if clean then 0 else p.degradedGm)
    heel := if lift then ⟨p.liftHeel - less, p.liftHeelBand⟩ else ⟨p.staticHeel - less, p.staticHeelBand⟩ }

/-- The own compartments that are checked: those that are not a TANK (R68, R78). -/
def compChecksOf (owned : List (Nat × Compartment)) (ts : List CompTerm) : List CheckResult :=
  (owned.filter (fun q => !isTank q.2)).map
    (fun q => checkOf (.compartment q.1) (massIn q.1 ts) none (some ⟨q.2.maxMass, 0⟩))

/-- The verdict of a solution that is not VOID (R81). -/
def verdictOf (cs : List CheckResult) : Verdict :=
  if cs.any (fun c => decide (c.outcome = .breach)) then .red
  else if cs.any (fun c => decide (c.outcome = .warn) || decide (c.outcome = .na)) then .amber
  else .green

/-- How a solution is judged: its limits in force, whether strength is judged, and the terms of its compartment
checks. -/
structure Judging where
  limits : LimitsInForce
  judged : Bool
  terms : List CompTerm
  deriving DecidableEq, Repr

/-- The values, checks and verdict of a solution inside the table (R72 to R81). -/
def solveIn (p : PassInput) (j : Judging) (t : Aggregate) (c : Centres) (i : Nat) (a b : HullRow) : SolvedValues :=
  let q := p.image.particulars
  let prop := interpolate t.mass a b
  let gm := prop (·.km) - c.kg - c.fsc
  let heel := heelOf t.mass t.my gm
  let trim := roundDiv (t.mass * (prop (·.lcb) - c.lcg)) (prop (·.mtm))
  let ta := prop (·.t) + roundDiv (trim * prop (·.lcf)) q.lpp
  let strength := ((List.range p.image.sections.length).zip t.aft).map (fun w => strengthOf t.mass a b w.1 w.2)
  let maxDraft : Limit := ⟨q.maxDraft, q.maxDraftBand⟩
  { row := i, t := prop (·.t), ta := ta, tf := ta - trim, trim := trim, km := prop (·.km), lcb := prop (·.lcb)
    lcf := prop (·.lcf), mtm := prop (·.mtm), gm := gm, heel := heel, strength := strength
    checks :=
      [checkOf .gm gm (some ⟨j.limits.gm, q.gmBand⟩) none, heelCheck heel j.limits.heel,
        checkOf .trim trim (some ⟨q.trimMin, q.trimBand⟩) (some ⟨q.trimMax, q.trimBand⟩),
        checkOf .maxDraftAft ta none (some maxDraft), checkOf .maxDraftForward (ta - trim) none (some maxDraft),
        checkOf .minDraftAft ta (some ⟨q.minAftDraft, q.minAftBand⟩) none] ++
      sectionChecksOf j.judged p.image.sections strength ++ compChecksOf p.owned j.terms }

/-- The values of a solution, none where it is VOID (R70, R71, R81). -/
def solveSum (p : PassInput) (j : Judging) (t : Aggregate) : Option SolvedValues :=
  match selectRows p.image.rows t.mass, centresOf t with
  | some (i, a, b), some c => some (solveIn p j t c i a b)
  | _, _ => none

/-! ### The records of a pass (R82) -/

/-- The strength checks are made: every peer entry of the snapshot is MATCH (R80). -/
def strengthJudged (w : Snapshot) : Bool := w.peers.all (fun e => decide (e.identity = .matching))

/-- The record of a solution from its sums (R81, R82). -/
def recordOf (p : PassInput) (passNumber : Nat) (flavour : Flavour) (included : Option IncludedCounts)
    (seen : Option ClaimSeen) (terms : List CompTerm) (t : Aggregate) : CondRecord :=
  let lift := decide (flavour = .lift) || decide (flavour = .probe)
  let j : Judging :=
    ⟨limitsInForce p.image.particulars p.snap.clean lift, strengthJudged p.snap, terms⟩
  let solved := solveSum p j t
  ⟨flavour, some
    { passNumber := passNumber, snapshotTime := p.snap.time, clean := p.snap.clean
      strengthJudged := j.judged, included := included, ownSeen := seen, delta := t.mass
      centres := centresOf t, solved := solved
      verdict := (solved.map (fun v => verdictOf v.checks)).getD .void }⟩

/-- The ACTUAL record of a pass (R64). -/
def actualRecord (p : PassInput) (n : Nat) : CondRecord :=
  recordOf p n .actual none none (actualTerms p) (actualSum p)

/-- The own claim a LIFT sees: its state and number in the snapshot (R57, R82; log 31). -/
def seenByLift (w : Snapshot) : ClaimSeen := ⟨w.claimState, w.claimNumber⟩

/-- The LIFT record of a pass (R66). -/
def liftRecord (p : PassInput) (n : Nat) : CondRecord :=
  let ts := includedClaims false p.snap
  recordOf p n .lift (some (includedCounts ts)) (some (seenByLift p.snap)) (liftItemTerms p ts) (liftSum p ts)

/-- The FINAL record of a pass (R67). -/
def finalRecord (p : PassInput) (n : Nat) : CondRecord :=
  recordOf p n .final none none (finalTerms p) (finalSum p)

/-- The probe record of a pass whose snapshot found the own claim PROBING (R60). -/
def probeRecord (p : PassInput) (n : Nat) : Option CondRecord :=
  if p.snap.claimState = .probing then
    let ts := includedClaims true p.snap
    some (recordOf p n .probe (some (includedCounts ts)) (some ⟨.probing, p.snap.claim.map (·.number)⟩)
      (liftItemTerms p ts) (liftSum p ts))
  else none

end Sys2Proof.Machine
end

