-- ==== Sys2Proof/Machine/Solver.lean ====
section
/-! DEFINITION. Solver passes: the snapshot, the publish and what it hands to its consumers (R55 to R60, R83,
R84), and READ CONDITION (R82). -/

namespace Sys2Proof.Machine

/-! ### A pass begins (R56, R57) -/

/-- The own claim in the snapshot: its record in PROBING, ANNOUNCED and COMMITTED, with the in-base mark read from
the item list (R57, R66, R123). -/
def snapClaim (s : State) : Option ClaimRecord :=
  match s.claim.state with
  | .probing | .announced | .committed => s.claim.record.map (claimNow s.stowage.items)
  | .none | .backoff => none

/-- The snapshot: every input as of the own timer's reading (R57, R95). -/
def snapshotOf (s : State) : Snapshot :=
  { time := s.now
    items := s.stowage.items
    trials := s.trial
    hook := if s.role = .crane then hookTerm s else none
    tanks := if s.role = .tank then tankTerms s else []
    peers := entriesAt s s.now
    claimState := s.claim.state
    claimNumber := if s.claim.state = .none then none else s.claim.record.map (·.number)
    claim := snapClaim s
    clean := cleanAt s s.now }

/-- A pass begins: the snapshot is taken, the dirty mark cleared, the time noted (R56, R57). A retained write in
progress is over before the pass uses the change (R38; log 9). -/
def beginPass (s : State) : State :=
  let s := completeWrite s
  s.setSolver { s.solver with pass := some (snapshotOf s), dirty := false, lastStart := some s.now }

/-- 250 ms have passed since the latest pass began (R56). -/
def intervalPassed (s : State) : Bool := passed (s.solver.lastStart.map (· + 250)) s

/-- The solver is IDLE and the station in LISTEN, RUN or QUIET (R56). -/
def passFree (s : State) : Bool := working s && s.solver.pass.isNone

/-- SOLVER_INTERVAL_EXPIRY: a pass begins 250 ms after the latest one began (R56). -/
def execSolverIntervalExpiry (dt : Nat) (s : State) : Answer :=
  let s := elapse dt s
  if passFree s ∧ intervalPassed s then .next (beginPass s) else .next s

/-- PASS_START: a pass begins while the dirty mark is set (R56, R57). -/
def execPassStart (dt : Nat) (s : State) : Answer :=
  let s := elapse dt s
  if passFree s ∧ s.solver.dirty then .next (beginPass s) else .next s

/-! ### A publish (R59, R83, R84) -/

/-- The pass number after `n` (R59). -/
def nextPassNumber (n : Nat) : Nat := if 4294967295 ≤ n then 1 else n + 1

/-- What a pass computes from: its snapshot and the stored tables. -/
def passInput (w : Snapshot) (s : State) : PassInput :=
  ⟨s.role, s.ownNumber.getD 0, s.img, s.ownCompartments, w⟩

/-- The verdict of a published record (R81). -/
def CondRecord.verdict (r : CondRecord) : Verdict := (r.body.map (·.verdict)).getD .notYet

/-- The event a new verdict asks for against the previous one of its flavour (R84). -/
def limitEvent (old new : Verdict) (s : State) : State :=
  latchIf (decide (new = .red) && decide (old ≠ .red)) .limitRed
    (latchIf (decide (new = .amber) && decide (old ≠ .amber)) .limitAmber s)

/-- The records of a pass replace the published ones together (R59, R60). -/
def publishRecords (w : Snapshot) (s : State) : State :=
  let p := passInput w s
  let n := nextPassNumber s.solver.passNumber
  s.setSolver { s.solver with
    pass := none, passNumber := n, actual := actualRecord p n, lift := liftRecord p n, final := finalRecord p n
    probe := (probeRecord p n).getD s.solver.probe }

/-- The limit events of a publish, after which the new verdicts are the previous ones (R84). -/
def limitEvents (s : State) : State :=
  let a := s.solver.actual.verdict
  let l := s.solver.lift.verdict
  let t := limitEvent s.solver.prevLift l (limitEvent s.solver.prevActual a s)
  t.setSolver { t.solver with prevActual := a, prevLift := l }

/-- The report unit takes a publish: both verdicts are held and the alarm condition evaluated (R180). -/
def reportArrival (s : State) : State :=
  evalAlarm (s.setReport { s.report with actual := s.solver.actual.verdict, lift := s.solver.lift.verdict })

/-- The crane supervisor takes a publish: the LIFT verdict is held and the permits evaluated (R154). -/
def craneArrival (s : State) : State :=
  if s.role = .crane then
    evalPermits (s.setCrane { s.crane with verdict := s.solver.lift.verdict })
  else s

/-- The probe of the publish, when its pass carried one (R83). -/
def probeOf (w : Snapshot) (s : State) : Option CondBody :=
  if w.claimState = .probing then s.solver.probe.body else none

/-- The consumers take a publish, each its part as one arrival (R83). -/
def handOut (w : Snapshot) (s : State) : State :=
  let s := reportArrival (compareHeel (limitEvents s))
  let s := claimArrival (probeOf w s) s.solver.lift.body s
  pumpArrival (actualHeel s) (craneArrival s)

/-- PUBLISH: the pass in flight ends, its records are published and handed out; the next pass begins at once
when 250 ms ran out meanwhile (R56, R59, R83; log 24). A retained write in progress is over before the claim unit reads
the list (R38; log 9). -/
def execPublish (dt : Nat) (s : State) : Answer :=
  let s := elapse dt s
  match s.solver.pass with
  | none => .next s
  | some w =>
    let t := handOut w (publishRecords w (completeWrite s))
    if working t ∧ intervalPassed t then .next (beginPass t) else .next t

/-! ### READ CONDITION (R82) -/

/-- The record of a flavour as it stands (R82). -/
def recordFor (f : Flavour) (s : State) : CondRecord :=
  match f with
  | .actual => s.solver.actual
  | .lift => s.solver.lift
  | .final => s.solver.final
  | .probe => s.solver.probe

/-- READ CONDITION as its owner takes it (R82, R188). -/
def readConditionOwner (seq : Byte) (flavour : Option Flavour) (s : State) : State :=
  match flavour with
  | none => respond 17 seq .range .empty s
  | some f => respond 17 seq .accepted (.condition (recordFor f s)) s

/-- READ_CONDITION (R82). -/
def execReadCondition (dt : Nat) (seq : Byte) (flavour : Option Flavour) (s : State) : Answer :=
  .next (request 17 seq (readConditionOwner seq flavour) (elapse dt s))

end Sys2Proof.Machine
end

