-- ==== Sys2Proof/Machine/Link.lean ====
section
/-! DEFINITION. Sending on the deck link: forming frames (R109, R110, R113), attempts, collisions and drops (R106,
R116), the SHARE interval and spacing (R114, R116), ROLLCALL answers (R117) and the TAG rotation (R118). -/

namespace Sys2Proof.Machine

/-! ### Forming frames (R109, R110) -/

/-- A ROLLCALL formed from the values now held (R109). -/
def formRollcall (request : Bool) (s : State) : RollcallBody :=
  { role := s.role, identity := s.table.identity.getD 0#32, cause := s.station.cause
    startFlag := s.link.startFlag, requestFlag := request, period := s.period
    envelopeMass := s.sec.envelopeMass, envelopePoint := s.sec.envelopePoint }

/-- The own hook term, at a CRANE station (R62, R110). -/
def ownHook (s : State) : Option HookTerm := if s.role = .crane then hookTerm s else none

/-- The claim part: the own record while ANNOUNCED or COMMITTED, its in-base mark read now (R110, R123). -/
def claimPart (s : State) : Option ClaimRecord :=
  match s.claim.state with
  | .announced | .committed => s.claim.record.map (claimNow s.stowage.items)
  | .none | .probing | .backoff => none

/-- A SHARE formed from the station as it now stands (R110). -/
def formShare (s : State) : ShareBody :=
  { quiet := decide (s.station.state = .quiet), clean := cleanAt s s.now
    listen := decide (s.station.state = .listen)
    base := ownBase s.role s.sectionXs s.stowage.items (tankTerms s)
    planned := ownDelta s.sectionXs (if s.role = .tank then [] else s.stowage.items)
    hook := ownHook s, claim := claimPart s }

/-- The reference values taken at the forming of a SHARE (R115). -/
def shareRefOf (s : State) : ShareRef := ⟨ownHook s, (tankTerms s).map (·.mass)⟩

/-- A fixed frame as its first attempt sends it (R109, R111, R112). -/
def fixedBody (f : Fixed) (s : State) : FrameBody :=
  match f with
  | .rollcall r => .rollcall (formRollcall r s)
  | .claim c => .claim c
  | .yield n => .yield n
  | .done b => .done b
  | .tag b => .tag b

/-! ### Attempts (R106, R113) -/

/-- A frame of the own station. -/
def ownFrame (b : FrameBody) (s : State) : Frame := ⟨s.ownNumber.getD 0, b⟩

/-- A first attempt of a frame starts (R106). -/
def firstAttempt (b : FrameBody) (s : State) : Transmission := ⟨ownFrame b s, 1, .sending⟩

/-- The spacing lets a SHARE start: 50 ms have passed since the start time of the latest one (R116). -/
def spacingAllows (s : State) : Bool :=
  !s.link.spacing || passed (s.link.shareStart.map (· + 50)) s

/-- The placeholder becomes a SHARE: formed now, with its start time and reference values (R113 to R116). -/
def startShare (s : State) : State :=
  s.setLink { s.link with
    placeholder := false, wakeCause := false, shareStart := some s.now, spacing := true, shareRef := some (shareRefOf s)
    tx := some (firstAttempt (.share (formShare s)) s) }

/-- The frame at the head of the queue starts its first attempt (R113 rule 5). -/
def startNext (s : State) : State :=
  match s.link.queue with
  | f :: rest => s.setLink { s.link with queue := rest, tx := some (firstAttempt (fixedBody f s) s) }
  | [] => if s.link.placeholder && spacingAllows s then startShare s else s

/-- The frame in transmission may start its next attempt: its random delay has run out (R106). -/
def attemptReady (t : Transmission) (s : State) : Bool :=
  match t.phase with
  | .sending => false
  | .ready => true
  | .backoff u => decide (u ≤ s.now)

/-- An attempt starts, the line being idle: the next attempt of the frame in transmission, or the first of the next
frame (R106). -/
def startAttempt (s : State) : State :=
  match s.link.tx with
  | some t =>
    if attemptReady t s then
      s.setLink { s.link with tx := some { t with attempts := t.attempts + 1, phase := .sending } }
    else s
  | none => startNext s

/-- The station transmits: LISTEN, RUN or QUIET, and no detected reset is pending (R105, R193). -/
def transmitting (s : State) : Bool := working s && takesInputs s

/-- TX_ATTEMPT_START (R106, R113). A retained write in progress is over before a frame carries the change (R38;
log 9). -/
def execTxAttemptStart (dt : Nat) (s : State) : Answer :=
  let s := elapse dt s
  if transmitting s then .next (startAttempt (completeWrite s)) else .next s

/-- The frame is a SHARE. -/
def isShare : FrameBody → Bool
  | .share _ => true
  | _ => false

/-- The frame is dropped after its 16th collided attempt; a dropped SHARE queues its placeholder again (R106,
R116). -/
def dropFrame (t : Transmission) (s : State) : State :=
  latch .linkTx (s.setLink { s.link with
    tx := none, placeholder := s.link.placeholder || isShare t.frame.body
    wakeCause := s.link.wakeCause && !isShare t.frame.body })

/-- The delay drawn after the `a`-th collided attempt: a whole number of ms in 0..4a (R106; log 10). -/
def drawDelay (a draws : Nat) : Nat := Config.backoffDraw draws % (4 * a + 1)

/-- An attempt has collided (R106). -/
def collide (t : Transmission) (s : State) : State :=
  if 16 ≤ t.attempts then dropFrame t s
  else
    s.setLink { s.link with
      tx := some { t with phase := .backoff (s.now + drawDelay t.attempts s.link.draws) }
      draws := s.link.draws + 1 }

/-- The transmission that is on the line. -/
def onLine (s : State) : Option Transmission :=
  match s.link.tx with
  | some t => if transmitting s = true ∧ t.phase = .sending then some t else none
  | none => none

/-- TX_COLLISION (R106). -/
def execTxCollision (dt : Nat) (s : State) : Answer :=
  let s := elapse dt s
  match onLine s with
  | some t => .next (collide t s)
  | none => .next s

/-- TX_BACKOFF_EXPIRY: the random delay runs out (R106). -/
def execTxBackoffExpiry (dt : Nat) (s : State) : Answer :=
  let s := elapse dt s
  match s.link.tx with
  | some t =>
    match t.phase with
    | .backoff u =>
      if u ≤ s.now then .next (s.setLink { s.link with tx := some { t with phase := .ready } }) else .next s
    | _ => .next s
  | none => .next s

/-- The frame is a ROLLCALL that carries the start flag (R109). -/
def carriesStart : FrameBody → Bool
  | .rollcall b => b.startFlag
  | _ => false

/-- TX_COMPLETE: the frame counts as sent; a ROLLCALL with the start flag clears the mark (R106, R109). -/
def execTxComplete (dt : Nat) (s : State) : Answer :=
  let s := elapse dt s
  match onLine s with
  | some t =>
    .next (s.setLink { s.link with
      tx := none, startFlag := s.link.startFlag && !carriesStart t.frame.body
      out := s.link.out ++ [encodeFrame t.frame] })
  | none => .next s

/-! ### The schedule (R114, R116 to R118) -/

/-- The SHARE interval, ms: the period in force, four times it in QUIET (R114, R120). -/
def shareInterval (s : State) : Nat := if s.station.state = .quiet then 4 * s.period else s.period

/-- SHARE_INTERVAL_EXPIRY: a periodic SHARE becomes due (R114). -/
def execShareIntervalExpiry (dt : Nat) (s : State) : Answer :=
  let s := elapse dt s
  if passed (s.link.shareStart.map (· + shareInterval s)) s then .next (shareCause s) else .next s

/-- SHARE_SPACING_EXPIRY: 50 ms have passed since the start time of the latest SHARE (R116). -/
def execShareSpacingExpiry (dt : Nat) (s : State) : Answer :=
  let s := elapse dt s
  if s.link.spacing ∧ passed (s.link.shareStart.map (· + 50)) s then
    .next (s.setLink { s.link with spacing := false })
  else .next s

/-- ROLLCALL_ANSWER_DUE: a ROLLCALL with the request flag clear is queued (R117). -/
def execRollcallAnswerDue (dt : Nat) (s : State) : Answer :=
  let s := elapse dt s
  if working s ∧ passed s.link.answerAt s then
    .next (queueRollcall false (s.setLink { s.link with answerAt := none }))
  else .next s

/-- The place from which the rotation goes on (R118). -/
def rotationFrom (p : Option RotationPointer) : Nat :=
  match p with
  | none => 0
  | some q => if q.gone then q.place else q.place + 1

/-- The first classed item at or after a place, with its place, item and class (R118). -/
def classedFrom (n : Nat) : List (Nat × Item) → Option (Nat × Item × Nat)
  | [] => none
  | (k, i) :: rest =>
    match i.cls with
    | some c => if n ≤ k then some (k, i, c) else classedFrom n rest
    | none => classedFrom n rest

/-- The next classed item of the rotation, wrapping to the start of the list (R118). -/
def nextClassed (p : Option RotationPointer) (items : List Item) : Option (Nat × Item × Nat) :=
  let places := (List.range items.length).zip items
  (classedFrom (rotationFrom p) places).or (classedFrom 0 places)

/-- A rotation turn with no fixed frame waiting: the next classed item is tagged (R118). -/
def rotateTag (s : State) : State :=
  match nextClassed s.link.rotation s.stowage.items with
  | none => s
  | some (k, i, c) =>
    queueTag (presentTag i c) (s.setLink { s.link with rotation := some ⟨k, false⟩ })

/-- TAG_ROTATION: the rotation time moves on by one SHARE interval; the turn is skipped while a fixed frame waits
(R118). A retained write in progress is over first (R38; log 9). -/
def execTagRotation (dt : Nat) (s : State) : Answer :=
  let s := elapse dt s
  match s.link.rotationAt with
  | none => .next s
  | some t =>
    if working s ∧ t + shareInterval s ≤ s.now then
      let u := completeWrite s
      let u := u.setLink { u.link with rotationAt := some (t + shareInterval s) }
      .next (if u.link.queue.isEmpty then rotateTag u else u)
    else .next s

end Sys2Proof.Machine
end

