-- ==== Sys2Proof/Machine/PeerView.lean ====
section
/-! DEFINITION. Receiving from the deck link (R107, R108), the peer view (R85 to R104), peers' claims (R140 to R143),
the journal's filter for peers' DONE frames (R183), and HALT (R96, R192). -/

namespace Sys2Proof.Machine

/-! ### Entries (R85, R86) -/

/-- The entry of a station number. -/
def findEntry (n : Nat) (es : List PeerEntry) : Option PeerEntry := es.find? (fun e => decide (e.station = n))

/-- The entries with one more, in ascending order of station number (R85). -/
def insertEntry (e : PeerEntry) : List PeerEntry → List PeerEntry
  | [] => [e]
  | o :: rest => if e.station < o.station then e :: o :: rest else o :: insertEntry e rest

/-- The entries with the one of the same station replaced. -/
def replaceEntry (e : PeerEntry) (es : List PeerEntry) : List PeerEntry :=
  es.map (fun o => if o.station = e.station then e else o)

/-- The view's entries are replaced, and the clean-view condition evaluated again (R97). -/
def setEntries (es : List PeerEntry) (s : State) : State := evalClean (s.setView { s.view with entries := es })

/-- A new entry finds the view full: 14 entries are held (R85). -/
def viewFull (s : State) : Bool := decide (14 ≤ s.view.entries.length)

/-- The view acts: the station is in LISTEN, RUN, QUIET or FAULT (R85, R102). -/
def viewing (s : State) : Bool := working s || decide (s.station.state = .fault)

/-! ### HALT (R96, R192) -/

/-- The pump controller at the entry to HALT: both demands NONE, both outputs INACTIVE (R176). -/
def haltPump (now : Nat) (p : Pump) : Pump :=
  outputsFor now 0 { p with autoDemand := .none, manualDemand := .none }

/-- The request in progress is answered STATE; a retained write that goes on has no response to form any more
(R187, R192). -/
def haltRequest (s : State) : State :=
  answerHeld .state .empty
    (s.setMemory { s.memory with writing := s.memory.writing.map (fun w => { w with response := none }) })

/-- The own claim at the entry to HALT: NONE; a change of its state sets the dirty mark (R55, R125, R192). -/
def haltClaim (s : State) : State :=
  let t := s.setClaim (claimEnded s.claim)
  if s.claim.state = .none then t else markDirty t

/-- The station enters HALT: DUPLICATE_STATION is latched, and each block acts as R192's table gives. -/
def enterHalt (s : State) : State :=
  let s := latch .duplicateStation s
  let s := s.setStation { s.station with
    state := .halt, since := s.now, quietStart := none, frozenAt := some s.now }
  let s := s.setLink { s.link with queue := [], placeholder := false, wakeCause := false, tx := none }
  let s := s.setSolver { s.solver with pass := none }
  let s := haltClaim s
  let s := s.setCrane { s.crane with overload := false }
  let s := s.setPump (haltPump s.now s.pump)
  let s := s.setLines { s.lines with frozen := some s.lines.inputs }
  haltRequest (evalPermits (evalClean s))

/-! ### Events of freshness (R92, R93) -/

/-- The events of an entry's advance from one state to another (R92, R93). -/
def latchAdvance (old new : PeerState) (s : State) : State :=
  latchIf (decide (old ≠ .lost) && decide (new = .lost)) .peerLost
    (latchIf (decide (old = .fresh) && decide (new ≠ .fresh)) .peerStale s)

/-! ### ROLLCALL (R88, R89, R91, R93, R117) -/

/-- A ROLLCALL's period is 100..2000 ms in steps of 100 (R88). -/
def periodOk (p : Int) : Bool := within 100 p 2000 && decide (p % 100 = 0)

/-- The identity status a ROLLCALL gives: UNKNOWN while the own identity is absent (R91). -/
def identityOf (own : Option Word32) (carried : Word32) : IdentityStatus :=
  match own with
  | none => .unknown
  | some v => if v = carried then .matching else .mismatch

/-- What an entry keeps of a ROLLCALL (R86). -/
def rollInfo (b : RollcallBody) : RollInfo :=
  ⟨b.role, b.identity, b.period, b.envelopeMass, b.envelopePoint, b.cause⟩

/-- The entry a ROLLCALL makes (R86). -/
def rollcallEntry (source : Nat) (b : RollcallBody) (s : State) : PeerEntry :=
  { station := source, roll := some (rollInfo b), identity := identityOf s.table.identity b.identity
    share := none, claim := none, state := .fresh, lastHeard := s.now }

/-- A ROLLCALL changes the broadcast period an entry holds; one held absent is changed by any (R93; log 46). -/
def periodChanges (b : RollcallBody) (e : PeerEntry) : Bool := decide (e.roll.map (·.period) ≠ some b.period)

/-- An entry after a ROLLCALL: the declared fields and the status replaced, its claim removed by a start flag, its
state moved on by new timeouts when the period changed (R88, R89, R91, R93). -/
def rollcallInto (b : RollcallBody) (e : PeerEntry) (s : State) : PeerEntry :=
  let n := { e with
    roll := some (rollInfo b), identity := identityOf s.table.identity b.identity
    claim := if b.startFlag then none else e.claim }
  if periodChanges b e then { n with state := stateAt s.period s.now n } else n

/-- The answer time a request sets: none is moved by a later request (R117). -/
def requestAnswer (s : State) : State :=
  if working s then
    s.setLink { s.link with answerAt := some (s.link.answerAt.getD (s.now + 20 * s.ownNumber.getD 0)) }
  else s

/-- An accepted ROLLCALL: the view's part as one change, then the link controller's (R88, R108). -/
def acceptRollcall (old new : PeerEntry) (entries : List PeerEntry) (s : State) : State :=
  let mismatched := decide (new.identity = .mismatch) && decide (old.identity ≠ .mismatch)
  markDirty (latchAdvance old.state new.state (latchIf mismatched .tableMismatch (setEntries entries s)))

/-- A ROLLCALL as the peer view and the link controller take it (R88; a new entry's MISMATCH is log 18). Its period is
checked first, also where the view is full and would make no entry (R85, R88; DESIGN CHOICE, log 50). -/
def takeRollcall (source : Nat) (b : RollcallBody) (s : State) : State :=
  if periodOk b.period then
    let t :=
      match findEntry source s.view.entries with
      | some e =>
        let n := rollcallInto b e s
        acceptRollcall e n (replaceEntry n s.view.entries) s
      | none =>
        let n := rollcallEntry source b s
        if viewFull s then s
        else acceptRollcall { n with identity := .unknown } n (insertEntry n s.view.entries) s
    if b.requestFlag then requestAnswer t else t
  else frameFailure s

/-! ### SHARE (R87, R141) -/

/-- What an entry keeps of a SHARE (R86). -/
def shareInfo (b : ShareBody) : ShareInfo := ⟨b.listen, b.quiet, b.clean, b.base, b.hook, b.planned⟩

/-- The entry a SHARE makes (R86). -/
def shareEntry (source : Nat) (b : ShareBody) (s : State) : PeerEntry :=
  { station := source, roll := none, identity := .unknown, share := some (shareInfo b), claim := b.claim
    state := .fresh, lastHeard := s.now }

/-- An entry after a SHARE: contributions and claim replaced, heard now, FRESH (R87, R141). -/
def shareInto (b : ShareBody) (e : PeerEntry) (s : State) : PeerEntry :=
  { e with share := some (shareInfo b), claim := b.claim, state := .fresh, lastHeard := s.now }

/-- A SHARE as the peer view takes it; a station not met before is asked for by a ROLLCALL (R87, R117). -/
def takeShare (source : Nat) (b : ShareBody) (s : State) : State :=
  match findEntry source s.view.entries with
  | some e =>
    markDirty (latchIf (decide (e.state = .lost)) .peerBack
      (setEntries (replaceEntry (shareInto b e s) s.view.entries) s))
  | none =>
    if viewFull s then s
    else
      let t := markDirty (setEntries (insertEntry (shareEntry source b s) s.view.entries) s)
      if working t then queueRollcall true t else t

/-! ### CLAIM, YIELD, DONE (R90, R140, R142, R183) -/

/-- A CLAIM replaces the entry's claim, with the state ANNOUNCED (R140). -/
def takeClaim (source : Nat) (c : ClaimRecord) (s : State) : State :=
  match findEntry source s.view.entries with
  | none => s
  | some e =>
    markDirty (setEntries (replaceEntry { e with claim := some { c with phase := some .announced } }
      s.view.entries) s)

/-- A YIELD or the claim part of a DONE removes a held claim of the same number (R142). -/
def takeYield (source number : Nat) (s : State) : State :=
  match findEntry source s.view.entries with
  | none => s
  | some e =>
    if e.claim.any (fun c => decide (c.number = number) && decide (number ≠ 0)) then
      markDirty (setEntries (replaceEntry { e with claim := none } s.view.entries) s)
    else s

/-- A filter entry other than (0, 0) (R183). -/
def filterActive (f : FilterEntry) : Bool := decide (f.station ≠ 0) || decide (f.cls ≠ 0)

/-- A filter entry matches a record; no class counts as class 0 (R183). -/
def filterMatches (r : JournalRecord) (f : FilterEntry) : Bool :=
  (decide (f.station = 0) || decide (f.station = r.station)) &&
    (decide (f.cls = 0) || decide (f.cls = (r.cls.getD 0 : Nat)))

/-- A peer's record passes the journal filter (R183). -/
def passesFilter (fs : List FilterEntry) (r : JournalRecord) : Bool :=
  fs.all (fun f => !filterActive f) || fs.any (fun f => filterActive f && filterMatches r f)

/-- The item summary of a peer's DONE is offered to the journal; a record that is written begins a retained write
(R183). -/
def offerPeer (r : JournalRecord) (s : State) : State :=
  if passesFilter s.sec.filter r then
    if journalRoom s then beginWrite none (offerRecord r s) else offerRecord r s
  else s

/-- A DONE: the peer view takes its claim number, the report unit its item summary outside FAULT (R108, R142,
R183). -/
def takeDone (source : Nat) (b : DoneBody) (s : State) : State :=
  let t := takeYield source b.claim s
  if working t then offerPeer (journalOf source b t.now) t else t

/-! ### Arrivals on the link (R105 to R108; log 6) -/

/-- The link controller receives: LISTEN, RUN, QUIET or FAULT, and no detected reset is pending (R105, R193). -/
def receiving (s : State) : Bool := viewing s && takesInputs s

/-- A frame that passed the frame check reaches the blocks that own what it carries (R108). -/
def takeFrame (f : Frame) (s : State) : State :=
  if s.ownNumber = some f.source then enterHalt s
  else
    match f.body with
    | .rollcall b => takeRollcall f.source b s
    | .share b => takeShare f.source b s
    | .claim c => takeClaim f.source c s
    | .yield n => takeYield f.source n s
    | .done b => takeDone f.source b s
    | .tag b => if working s then takeTag f.source b s else s

/-- A transmission that reached the end of a frame: the frame check, then its owners (R107, R108). -/
def linkArrival (bytes : List Byte) (s : State) : State :=
  if receiving s then
    match frameOf bytes with
    | some f => takeFrame f s
    | none => frameFailure s
  else s

/-- ROLLCALL (R88). -/
def execRollcall (dt : Nat) (bytes : List Byte) (s : State) : Answer := .next (linkArrival bytes (elapse dt s))

/-- SHARE (R87). -/
def execShare (dt : Nat) (bytes : List Byte) (s : State) : Answer := .next (linkArrival bytes (elapse dt s))

/-- CLAIM (R140). -/
def execClaim (dt : Nat) (bytes : List Byte) (s : State) : Answer := .next (linkArrival bytes (elapse dt s))

/-- YIELD (R142). -/
def execYield (dt : Nat) (bytes : List Byte) (s : State) : Answer := .next (linkArrival bytes (elapse dt s))

/-- DONE (R142, R183). -/
def execDone (dt : Nat) (bytes : List Byte) (s : State) : Answer := .next (linkArrival bytes (elapse dt s))

/-- TAG (R26). -/
def execTag (dt : Nat) (bytes : List Byte) (s : State) : Answer := .next (linkArrival bytes (elapse dt s))

/-- FRAME_CHECK_FAIL (R107). -/
def execFrameCheckFail (dt : Nat) (bytes : List Byte) (s : State) : Answer :=
  .next (linkArrival bytes (elapse dt s))

/-- LINE_IDLE_TIMEOUT: the line fell idle before the declared length (R107 check 1). -/
def execLineIdleTimeout (dt : Nat) (bytes : List Byte) (s : State) : Answer :=
  let s := elapse dt s
  if receiving s && cutShort bytes then .next (frameFailure s) else .next s

/-- FRAGMENT_RECEIVED: a transmission ended by a break is no frame and changes nothing (R106). -/
def execFragmentReceived (dt : Nat) (_bytes : List Byte) (s : State) : Answer := .next (elapse dt s)

/-! ### The view's timers (R92, R98) -/

/-- An entry takes a new state; the events of its advance are latched (R92). -/
def advanceEntry (e : PeerEntry) (st : PeerState) (s : State) : State :=
  markDirty (latchAdvance e.state st (setEntries (replaceEntry { e with state := st } s.view.entries) s))

/-- PEER_STALE: a FRESH entry's stale time has passed (R92). -/
def execPeerStale (dt : Nat) (station : Nat) (s : State) : Answer :=
  let s := elapse dt s
  match findEntry station s.view.entries with
  | none => .next s
  | some e =>
    if viewing s ∧ e.state = .fresh ∧ e.lastHeard + staleTime s.period e ≤ s.now then
      .next (advanceEntry e .stale s)
    else .next s

/-- PEER_LOST: an entry's lost time has passed; one that was still FRESH becomes STALE and then LOST at the same
moment (R92, R93; log 26). -/
def execPeerLost (dt : Nat) (station : Nat) (s : State) : Answer :=
  let s := elapse dt s
  match findEntry station s.view.entries with
  | none => .next s
  | some e =>
    if viewing s ∧ e.state ≠ .lost ∧ e.lastHeard + lostTime s.period e ≤ s.now then
      .next (advanceEntry e .lost s)
    else .next s

/-- FRAME_CHECK_WINDOW_CLOSE: 10 own periods have passed since the latest failure (R98). -/
def execFrameCheckWindowClose (dt : Nat) (s : State) : Answer :=
  let s := elapse dt s
  if viewing s ∧ s.view.windowOpen ∧ passed (s.view.failureAt.map (· + 10 * s.period)) s then
    .next (evalClean (s.setView { s.view with windowOpen := false }))
  else .next s

/-! ### READ VIEW (R103) -/

/-- A held claim as READ VIEW shows it (R103). -/
def claimReadout (c : ClaimRecord) : ClaimReadout := ⟨c.number, c.cls, c.phase, c.mass⟩

/-- An entry as READ VIEW shows it (R103). -/
def entryReadout (e : PeerEntry) : EntryReadout :=
  { station := e.station, state := e.state, lastHeard := e.lastHeard, roll := e.roll, identity := e.identity
    listen := e.share.map (·.listen), quiet := peerQuiet e, clean := e.share.map (·.clean)
    baseMass := e.share.map (·.base.mass), hook := e.share.bind (·.hook)
    plannedMass := e.share.map (·.planned.mass), claim := e.claim.map claimReadout }

/-- READ VIEW's response, with every timeout that has passed in force (R103). -/
def viewReadout (s : State) : ViewReadout :=
  { timer := s.now, count := s.view.entries.length, clean := cleanAt s s.now, parts := cleanPartsAt s s.now
    failureAt := s.view.failureAt, entries := (entriesAt s s.now).map entryReadout }

/-- READ VIEW as the peer view takes it (R103, R186). -/
def readViewOwner (seq : Byte) (fits : Bool) (s : State) : State :=
  if fits then respond 18 seq .accepted (.view (viewReadout s)) s else respond 18 seq .range .empty s

/-- READ_VIEW (R103, R186). -/
def execReadView (dt : Nat) (req : BareRequest) (s : State) : Answer :=
  .next (request 18 req.seq (readViewOwner req.seq req.fits) (elapse dt s))

end Sys2Proof.Machine
end

