-- ==== Sys2Proof/Machine/Panel.lean ====
section
/-! DEFINITION. The panel port: records that fail their check (R186), and READ STATUS with the parts of every block
(R104, R144, R164, R176, R180, R185, R189). -/

namespace Sys2Proof.Machine

/-! ### Records that are no requests (R186; log 7) -/

/-- PANEL_RECORD_INVALID: a record that fails its check has no effect, and one that passes is a request, which comes as
its own command; so the bytes decide nothing here (R186). -/
def execPanelRecordInvalid (dt : Nat) (_bytes : List Byte) (s : State) : Answer := .next (elapse dt s)

/-- PANEL_FRAGMENT_TIMEOUT: a fragment is discarded, whatever was received (R186). -/
def execPanelFragmentTimeout (dt : Nat) (_bytes : List Byte) (s : State) : Answer := .next (elapse dt s)

/-! ### The parts of the status record -/

/-- The time every part is read at: the entry to HALT while in HALT, else now (R189; log 19). -/
def readTime (s : State) : Nat := if s.station.state = .halt then s.station.frozenAt.getD s.now else s.now

/-- The time since the latest accepted record (R164, R176). -/
def sinceRecord (s : State) : Option Nat := s.sensor.lastRecord.map (fun t => readTime s - t)

/-- A value shown only from a LOADED store (R189). -/
def whenLoaded {α : Type} (s : State) (v : α) : Option α := if s.isLoaded then some v else none

/-- The station part (R189). -/
def stationPart (s : State) : StationPart :=
  { state := s.station.state, timeIn := readTime s - s.station.since, timer := readTime s, cause := s.station.cause
    retainedPassed := some s.station.retainedPassed, fault := s.table.fault, identity := s.table.identity
    number := s.table.number, role := whenLoaded s s.role, period := whenLoaded s s.period
    hold := whenLoaded s s.holdWindow, passNumber := s.solver.passNumber, actual := s.solver.actual.verdict
    lift := s.solver.lift.verdict, final := s.solver.final.verdict, items := s.stowage.items.length
    trials := s.trial.length
    voids := (s.trial.filter (fun e =>
      match e with
      | .move _ _ _ voided => voided
      | .add .. => false)).length
    mapCount := s.stowage.map.length, mapIncomplete := s.stowage.mapIncomplete }

/-- The number of entries in a state (R104). -/
def countState (st : PeerState) (es : List PeerEntry) : Nat := (es.filter (fun e => decide (e.state = st))).length

/-- The number of entries with an identity status (R104). -/
def countIdentity (i : IdentityStatus) (es : List PeerEntry) : Nat :=
  (es.filter (fun e => decide (e.identity = i))).length

/-- The peer view part (R104). -/
def viewPart (s : State) : ViewPart :=
  let es := s.view.entries
  { count := es.length, fresh := countState .fresh es, stale := countState .stale es, lost := countState .lost es
    matching := countIdentity .matching es, mismatch := countIdentity .mismatch es
    unknown := countIdentity .unknown es, clean := cleanNow s, parts := cleanParts s
    agreement := if s.inclinometer then some s.view.agreement else none }

/-- The time left until `t`, where it is held; 0 once it has passed, as for a claim still ANNOUNCED past its hold expiry
(R144, R130; DESIGN CHOICE, log 52). -/
def timeLeft (s : State) (t : Option Nat) : Option Nat := t.map (fun v => v - readTime s)

/-- The claim unit part (R144). -/
def claimUnitPart (s : State) : ClaimPart :=
  let c := s.claim
  { state := c.state
    claim := if c.state = .none then none else c.record.map (claimNow s.stowage.items)
    withdrawals := c.withdrawals, holdLeft := if c.state = .announced then timeLeft s c.holdExpiry else none
    backoffLeft := if c.state = .backoff then timeLeft s c.backoffExpiry else none
    sinceCommit := if c.state = .committed then c.commitTime.map (fun t => readTime s - t) else none
    overdue := c.overdue, conflict := c.conflict, nextNumber := c.nextNumber }

/-- The crane supervisor part (R164). -/
def cranePart (s : State) : CranePart :=
  let c := s.crane
  { port := s.sensor.port, sinceRecord := sinceRecord s, held := c.held, heel := c.heel
    position := hookPosition s, lastLoaded := c.lastLoaded, carrying := c.carrying, unclaimed := c.unclaimed
    overload := c.overload, verdict := c.verdict, permits := c.permits, discarded := s.sensor.discarded }

/-- The lines as the status record shows them: as they stood at the entry to HALT while in HALT (R189; log 19). -/
def shownInputs (s : State) : List LineInput :=
  if s.station.state = .halt then s.lines.frozen.getD s.lines.inputs else s.lines.inputs

/-- One line of the line block part (R164). -/
def lineReadout (s : State) (n : Nat) : LineReadout :=
  { entry := s.lineEntry n
    filtered := if lineSampled s n then some ((shownInputs s).getD (n - 1) ⟨false, 0, false⟩).filtered else none
    driven := lineDriven s n }

/-- The line block part (R164). -/
def linePart (s : State) : LinePart := ⟨lineNumbers.map (lineReadout s), safeState s⟩

/-- The time left until a WAITING output may become ACTIVE (R176). -/
def waitLeft (s : State) : Option Nat :=
  if s.pump.ps = .waiting then some (s.pump.offSp + deadInterval s - readTime s)
  else if s.pump.sp = .waiting then some (s.pump.offPs + deadInterval s - readTime s)
  else none

/-- The own tanks as read (R176). -/
def tankReadouts (s : State) : List TankReadout :=
  match s.pump.levels with
  | none => s.ownTanks.map (fun _ => ⟨none, none⟩)
  | some ls => (s.ownTanks.zip ls).map (fun q => ⟨some q.2, some (tankTerm q.1.2 q.2)⟩)

/-- The pump controller part (R176). -/
def pumpPart (s : State) : PumpPart :=
  let p := s.pump
  { auto := p.auto, suspended := p.suspended, autoDemand := p.autoDemand, manualDemand := p.manualDemand
    effective := effectiveDemand p, ps := p.ps, sp := p.sp, offPs := p.offPs, offSp := p.offSp
    waitLeft := waitLeft s, psLimit := levelLimit s .ps, spLimit := levelLimit s .sp, port := s.sensor.port
    sinceRecord := sinceRecord s, discarded := s.sensor.discarded, tanks := tankReadouts s }

/-- The event latch, the mask and the alarm condition (R178, R180). -/
def reportPart (s : State) : ReportPart := ⟨s.report.latched, s.report.mask, s.report.alarm⟩

/-- The journal part (R185). -/
def journalPart (s : State) : JournalPart :=
  ⟨s.journal.writeA, s.journal.bankA.length, s.journal.bankB.length, s.sec.filter⟩

/-- A part given unless a condition marks it absent. -/
def partWhen {α : Type} (b : Bool) (v : α) : Option α := if b then some v else none

/-- The status record, with the absences of START, FAULT and the role (R189; log 20). -/
def statusRecord (s : State) : StatusRecord :=
  let started := decide (s.station.state ≠ .start)
  let full := started && decide (s.station.state ≠ .fault)
  { station := stationPart s, view := partWhen started (viewPart s)
    claim := partWhen (full && decide (s.role = .crane)) (claimUnitPart s)
    crane := partWhen (full && decide (s.role = .crane)) (cranePart s), lines := some (linePart s)
    pump := partWhen (full && decide (s.role = .tank)) (pumpPart s)
    report := partWhen started (reportPart s), journal := partWhen full (journalPart s) }

/-- READ STATUS as the panel port controller takes it (R186, R189). -/
def readStatusOwner (seq : Byte) (fits : Bool) (s : State) : State :=
  if fits then respond 19 seq .accepted (.status (statusRecord s)) s else respond 19 seq .range .empty s

/-- READ_STATUS (R186, R189). -/
def execReadStatus (dt : Nat) (req : BareRequest) (s : State) : Answer :=
  .next (requestUsingList 19 req.seq (readStatusOwner req.seq req.fits) (elapse dt s))

end Sys2Proof.Machine
end

