-- ==== Sys2Proof/Machine/Report.lean ====
section
/-! DEFINITION. The report unit's requests: READ EVENTS, SET MASK, READ JOURNAL and SWITCH BANK (R178, R179, R184,
R185). -/

namespace Sys2Proof.Machine

/-- READ EVENTS as its owner takes it: exactly the kinds returned are removed (R178, R186). -/
def readEventsOwner (seq : Byte) (fits : Bool) (s : State) : State :=
  if fits then
    evalAlarm ((respond 20 seq .accepted (.events s.report.latched s.report.mask) s).setReport
      { s.report with latched := [] })
  else respond 20 seq .range .empty s

/-- READ_EVENTS (R178, R186). -/
def execReadEvents (dt : Nat) (req : BareRequest) (s : State) : Answer :=
  .next (request 20 req.seq (readEventsOwner req.seq req.fits) (elapse dt s))

/-- The set of kinds with the codes given, in the order of the codes (R179). -/
def kindsOfCodes (codes : List Nat) : List EventKind :=
  allKinds.filter (fun k => (codes.filterMap kindOfCode).contains k)

/-- SET MASK as its owner takes it (R179). -/
def setMaskOwner (seq : Byte) (codes : Option (List Nat)) (s : State) : State :=
  match codes with
  | none => respond 21 seq .range .empty s
  | some cs =>
    if cs.all (fun c => (kindOfCode c).isSome) then
      respond 21 seq .accepted .empty (evalAlarm (s.setReport { s.report with mask := kindsOfCodes cs }))
    else respond 21 seq .range .empty s

/-- SET_MASK (R179). -/
def execSetMask (dt : Nat) (seq : Byte) (codes : Option (List Nat)) (s : State) : Answer :=
  .next (request 21 seq (setMaskOwner seq codes) (elapse dt s))

/-- READ JOURNAL as its owner takes it (R185). -/
def readJournalOwner (seq : Byte) (index : Option Nat) (s : State) : State :=
  match index with
  | none => respond 22 seq .range .empty s
  | some n =>
    if 1 ≤ n ∧ n ≤ 32 then
      let j := s.journal
      respond 22 seq .accepted (.journal (!j.writeA) (readBank j).length (writeBank j).length
        (((readBank j).drop (n - 1)).take 8)) s
    else respond 22 seq .range .empty s

/-- READ_JOURNAL (R185). -/
def execReadJournal (dt : Nat) (seq : Byte) (index : Option Nat) (s : State) : Answer :=
  .next (request 22 seq (readJournalOwner seq index) (elapse dt s))

/-- The read bank is emptied and the bank roles exchanged (R184). -/
def switchBanks (j : Journal) : Journal :=
  if j.writeA then ⟨j.bankA, [], false⟩ else ⟨[], j.bankB, true⟩

/-- SWITCH BANK as its owner takes it (R184, R186). -/
def switchBankOwner (seq : Byte) (fits : Bool) (s : State) : State :=
  if fits then
    let j := switchBanks s.journal
    acceptWrite 23 seq (.switched (!j.writeA) (readBank j).length) (s.setJournal j)
  else respond 23 seq .range .empty s

/-- SWITCH_BANK (R184, R186). -/
def execSwitchBank (dt : Nat) (req : BareRequest) (s : State) : Answer :=
  .next (request 23 req.seq (switchBankOwner req.seq req.fits) (elapse dt s))

end Sys2Proof.Machine
end

