-- ==== Sys2Proof/Machine/Start.lean ====
section
/-! DEFINITION. Resets and the supply (R193), START and the reading of the commissioning memory (R2, R3, R19, R190),
LISTEN and the entry to RUN (R191), and the entry to QUIET (R120). -/

namespace Sys2Proof.Machine

/-! ### Resets (R193; combinations are log 15) -/

/-- The pending reset takes place once the supply and the restart line have cleared, and for PANEL_RESTART once
the response has been sent (R193). -/
def settleReset (s : State) : State :=
  match s.power.resetPending with
  | none => s
  | some c =>
    if s.power.low || s.power.line || (decide (c = .panelRestart) && !s.power.responseSent) then s
    else resetWith c s

/-- A detection makes a reset pending; the cause recorded is that of the first (R193). -/
def pendReset (cause : ResetCause) (p : Power) : Power :=
  { p with resetPending := some (p.resetPending.getD cause), responseSent := true }

/-- A frame in transmission is ended with a break (R193). -/
def breakFrame (s : State) : State := s.setLink { s.link with tx := none }

/-- POWER_ON: the supply rises from off into range (R193). -/
def execPowerOn (dt : Nat) (s : State) : Answer :=
  let s := elapse dt s
  .next (settleReset (s.setPower
    { s.power with low := false, off := false, resetPending := some .powerOn, responseSent := true }))

/-- BROWN_OUT: the supply falls below the threshold (R193). -/
def execBrownOut (dt : Nat) (s : State) : Answer :=
  let s := elapse dt s
  .next (breakFrame (s.setPower { pendReset .brownOut s.power with low := true }))

/-- SUPPLY_RECOVER: the supply recovers above the threshold; one that is off rises by POWER_ON (R193). -/
def execSupplyRecover (dt : Nat) (s : State) : Answer :=
  let s := elapse dt s
  if s.power.off then .next s else .next (settleReset (s.setPower { s.power with low := false }))

/-- SUPPLY_OFF: the next start is a POWER_ON, whatever cause was pending (R193). -/
def execSupplyOff (dt : Nat) (s : State) : Answer :=
  let s := elapse dt s
  .next (breakFrame (s.setPower
    { s.power with low := true, off := true, resetPending := some .powerOn, responseSent := true }))

/-- RESTART_LINE: the restart line has been held active for 10 ms (R193). -/
def execRestartLine (dt : Nat) (s : State) : Answer :=
  let s := elapse dt s
  .next (breakFrame (s.setPower { pendReset .restartLine s.power with line := true }))

/-- RESTART_LINE_RELEASE: the line returns to inactive (R193). -/
def execRestartLineRelease (dt : Nat) (s : State) : Answer :=
  let s := elapse dt s
  .next (settleReset (s.setPower { s.power with line := false }))

/-- RESTART_RESPONSE_SENT: the ACCEPTED response to RESTART has been sent (R193). -/
def execRestartResponseSent (dt : Nat) (s : State) : Answer :=
  let s := elapse dt s
  if s.power.resetPending = some .panelRestart then
    .next (settleReset (s.setPower { s.power with responseSent := true }))
  else .next s

/-- RESTART as the panel port controller takes it: ACCEPTED, with a PANEL_RESTART reset pending until the response
has been sent (R193). -/
def restartOwner (seq : Byte) (fits : Bool) (s : State) : State :=
  if fits then
    respond 26 seq .accepted .empty
      (s.setPower { s.power with resetPending := some (s.power.resetPending.getD .panelRestart) })
  else respond 26 seq .range .empty s

/-- RESTART (R186, R193). -/
def execRestart (dt : Nat) (req : BareRequest) (s : State) : Answer :=
  .next (request 26 req.seq (restartOwner req.seq req.fits) (elapse dt s))

/-! ### The end of START (R14, R19, R20, R190, R191) -/

/-- The line block applies the configuration: filtered states start inactive and levels are sampled from now
(R14, R160). -/
def applyLines (s : State) : State :=
  s.setLines { s.lines with applied := true, inputs := s.lines.inputs.map (fun l => ⟨l.raw, s.now, false⟩) }

/-- The station enters LISTEN and starts its work (R191). -/
def enterListen (s : State) : State :=
  let s := s.setStation { s.station with state := .listen, since := s.now, listenAt := some s.now }
  let s := latchIf (!s.station.retainedPassed) .retainedLost s
  let s := shareCause (queueRollcall true s)
  let s := s.setLink { s.link with rotationAt := some s.now }
  evalPermits (evalClean (markDirty s))

/-- Validation succeeds: the store becomes LOADED, automatic mode takes its default, and LISTEN begins
(R2, R20, R168, R190; log 13). -/
def loadTable (r : ReadResult) (s : State) : State :=
  let s := s.setTable { s.table with
    contents := .loaded, identity := some r.imageCrc, number := some r.stationSection.number.toNat }
  let s := s.setPump { s.pump with auto := (r.stationSection.pump.bind (·.autoDefault)).getD false }
  enterListen (applyLines s)

/-- Validation fails: the fault record is written, the store becomes INVALID and the station enters FAULT, with the
line configuration applied where it passes on its own (R14, R19, R190). -/
def rejectTable (f : FaultRecord) (r : Option ReadResult) (s : State) : State :=
  let s := s.setTable { s.table with
    contents := .invalid, fault := f, identity := r.bind (fun r => identityShown r f.kind)
    number := r.bind numberShown }
  let s := s.setStation { s.station with state := .fault, since := s.now }
  let s := evalPermits (evalClean s)
  if r.any linesPass then applyLines s else s

/-- A complete read is validated (R19). -/
def finishRead (s : State) : State :=
  match s.table.readResult with
  | none => s
  | some r =>
    match validate r with
    | none => loadTable r s
    | some f => rejectTable f (some r) s

/-- The memory is unreadable (R3, R19). -/
def unreadable (s : State) : State := rejectTable ⟨.memoryUnreadable, 0⟩ none s

/-! ### Reading the commissioning memory (R3) -/

/-- The part that R3's order awaits, taken into the store; none where the part given is not the one awaited or does
not have the lengths the header declares (log 5). -/
def takePart (t : TableStore) (part : MemoryPart) : Option TableStore :=
  match t.header, t.image, t.tableCheck, t.stationSection, part with
  | none, _, _, _, .header h => some { t with header := some h }
  | some h, none, _, _, .image i bytes =>
    if imageFitsHeader h i then some { t with image := some i, imageCrc := some (crc32 bytes) } else none
  | some _, some _, none, _, .tableCheck v => some { t with tableCheck := some v }
  | some _, some _, some _, none, .stationSection c bytes =>
    if sectionFits c then some { t with stationSection := some c, sectionCrc := some (crc32 bytes) } else none
  | some _, some _, some _, some _, .sectionCheck v => some { t with sectionCheck := some v }
  | _, _, _, _, _ => none

/-- The station reads its memory: START, with the store EMPTY. -/
def reading (s : State) : Bool := decide (s.station.state = .start) && decide (s.table.contents = .empty)

/-- MEMORY_READ: the memory answers a read, ends early, or is absent (R3). -/
def execMemoryRead (dt : Nat) (part : MemoryPart) (s : State) : Answer :=
  let s := elapse dt s
  if reading s then
    match part with
    | .ended | .absent => .next (unreadable s)
    | _ =>
      match takePart s.table part with
      | none => .next s
      | some t => .next (finishRead (s.setTable { t with attempts := 0, readAt := s.now }))
  else .next s

/-- MEMORY_READ_TIMEOUT: a read goes unanswered for 50 ms; the third time the memory is unreadable (R3). -/
def execMemoryReadTimeout (dt : Nat) (s : State) : Answer :=
  let s := elapse dt s
  if reading s ∧ s.table.readAt + 50 ≤ s.now then
    if 2 ≤ s.table.attempts then .next (unreadable s)
    else .next (s.setTable { s.table with attempts := s.table.attempts + 1, readAt := s.now })
  else .next s

/-! ### LISTEN, RUN and QUIET (R120, R191) -/

/-- LISTEN_TIMEOUT: 4,000 ms after the entry to LISTEN the station enters RUN (R191). -/
def execListenTimeout (dt : Nat) (s : State) : Answer :=
  let s := elapse dt s
  if s.station.state = .listen ∧ passed (s.station.listenAt.map (· + 4000)) s then
    .next (evalPermits (s.setStation { s.station with
      state := .run, since := s.now, quietStart := if quietConditions s then some s.now else none }))
  else .next s

/-- The quiet filter time, ms; none for OFF (R11). -/
def quietTime (s : State) : Option Nat :=
  match s.sec.quiet with
  | some .s4 => some 4000
  | some .s60 => some 60000
  | some .s300 => some 300000
  | some .off => none
  | none => none

/-- The quiet filter has run out: RUN, with the filter running since a start time (R119). -/
def quietDue (s : State) : Bool :=
  decide (s.station.state = .run) &&
    (match s.station.quietStart, quietTime s with
      | some t, some q => decide (t + q ≤ s.now)
      | _, _ => false)

/-- QUIET_FILTER_EXPIRY: the station enters QUIET, an immediate SHARE cause (R120). -/
def execQuietFilterExpiry (dt : Nat) (s : State) : Answer :=
  let s := elapse dt s
  if quietDue s then
    .next (evalPermits (shareCause (s.setStation { s.station with
      state := .quiet, since := s.now, quietStart := none })))
  else .next s

end Sys2Proof.Machine
end

