-- ==== Sys2Proof/Machine/Trial.lean ====
section
/-! DEFINITION. The trial stack: TRIAL ADD, TRIAL MOVE, TRIAL DROP, TRIAL CLEAR and TRIAL ADOPT (R43 to R53). -/

namespace Sys2Proof.Machine

/-- A trial request's response with nothing but the entries held (R53). -/
def respondHeld (code : Nat) (seq : Byte) (result : ResultCode) (s : State) : State :=
  respond code seq result (.held s.trial.length) s

/-- An entry is pushed on top and the request accepted; the view is marked dirty (R45, R46, R53). -/
def pushTrial (code : Nat) (seq : Byte) (e : TrialEntry) (s : State) : State :=
  let n := s.trial.length + 1
  respond code seq .accepted (.pushed n n) (markDirty (s.setTrial (s.trial ++ [e])))

/-- The checks of orders 5 to 8 of R45 for an ADD entry above the entries of `below`. -/
def addEntryRefusal (s : State) (mass : Int) (pos : Point) (comp : Nat) (length breadth : Int) (cls : Option Nat)
    (below : List TrialEntry) : Option ResultCode :=
  (placementRefusal s pos comp mass length breadth).or
    (if trialSegregated s none cls pos comp below then some .segregation else none)

/-- The checks of orders 8 to 11 of R46 for a MOVE of an item above the entries of `below`. -/
def moveEntryRefusal (s : State) (i : Item) (pos : Point) (comp : Nat) (below : List TrialEntry) :
    Option ResultCode :=
  (placementRefusal s pos comp i.mass i.length i.breadth).or
    (if trialSegregated s (some i.number) i.cls pos comp below then some .segregation else none)

/-- The stack holds 8 entries (R43). -/
def stackFull (s : State) : Bool := decide (8 ≤ s.trial.length)

/-- TRIAL ADD's refusal, in R45's order. -/
def trialAddRefusal (a : TrialAddArgs) (s : State) : Option ResultCode :=
  (firstRefusal [(atTank s, .role), (!cargoInRange s a.mass a.pos a.comp a.length a.breadth a.cls, .range),
      (stackFull s, .stackFull), (mapBlocks s a.cls, .mapFull)]).or
    (addEntryRefusal s a.mass a.pos a.comp a.length a.breadth a.cls s.trial)

/-- TRIAL ADD as its owner takes it (R45). -/
def trialAddOwner (seq : Byte) (args : Option TrialAddArgs) (s : State) : State :=
  match args with
  | none => respondHeld 9 seq (misfit s) s
  | some a =>
    match trialAddRefusal a s with
    | some r => respondHeld 9 seq r s
    | none => pushTrial 9 seq (.add a.mass a.pos a.comp a.length a.breadth a.cls) s

/-- TRIAL_ADD (R45). -/
def execTrialAdd (dt : Nat) (seq : Byte) (args : Option TrialAddArgs) (s : State) : Answer :=
  .next (requestUsingList 9 seq (trialAddOwner seq args) (elapse dt s))

/-- TRIAL MOVE's refusal before the item is looked up, in R46's order. -/
def trialMoveEarly (a : TrialMoveArgs) (s : State) : Option ResultCode :=
  firstRefusal [(atTank s, .role),
    (!(itemInRange a.item && pointInRange a.pos && compInRange s a.comp), .range), (stackFull s, .stackFull)]

/-- TRIAL MOVE's refusal for the record found, in R46's order. -/
def trialMoveRefusal (a : TrialMoveArgs) (i : Item) (s : State) : Option ResultCode :=
  (firstRefusal [(decide (i.state ≠ .plannedIn), .itemState), (underClaim s i.number, .claimActive),
      (mapBlocks s i.cls, .mapFull)]).or (moveEntryRefusal s i a.pos a.comp s.trial)

/-- TRIAL MOVE as its owner takes it (R46). -/
def trialMoveOwner (seq : Byte) (args : Option TrialMoveArgs) (s : State) : State :=
  match args with
  | none => respondHeld 10 seq (misfit s) s
  | some a =>
    match trialMoveEarly a s with
    | some r => respondHeld 10 seq r s
    | none =>
      match findItem a.item s.stowage.items with
      | none => respondHeld 10 seq .unknownItem s
      | some i =>
        match trialMoveRefusal a i s with
        | some r => respondHeld 10 seq r s
        | none => pushTrial 10 seq (.move a.item a.pos a.comp false) s

/-- TRIAL_MOVE (R46). -/
def execTrialMove (dt : Nat) (seq : Byte) (args : Option TrialMoveArgs) (s : State) : Answer :=
  .next (requestUsingList 10 seq (trialMoveOwner seq args) (elapse dt s))

/-- The entry is a MOVE, VOID or not (R49). -/
def isMove : TrialEntry → Bool
  | .move .. => true
  | .add .. => false

/-- A trial request that carries no argument: ROLE at a TANK station, then RANGE for a body that does not fit (R43,
R186; log 7). -/
def withoutBody (code : Nat) (seq : Byte) (fits : Bool) (act : State → State) (s : State) : State :=
  match firstRefusal [(atTank s, .role), (!fits, .range)] with
  | some r => respondHeld code seq r s
  | none => act s

/-- TRIAL DROP at a station that holds a stack (R49). -/
def dropTop (seq : Byte) (s : State) : State :=
  match s.trial.getLast? with
  | none => respondHeld 11 seq .stackEmpty s
  | some e =>
    respond 11 seq .accepted (.dropped (isMove e) (s.trial.length - 1))
      (markDirty (s.setTrial s.trial.dropLast))

/-- TRIAL DROP as its owner takes it (R49, R186). -/
def trialDropOwner (seq : Byte) (fits : Bool) (s : State) : State := withoutBody 11 seq fits (dropTop seq) s

/-- TRIAL_DROP (R49, R186). -/
def execTrialDrop (dt : Nat) (req : BareRequest) (s : State) : Answer :=
  .next (request 11 req.seq (trialDropOwner req.seq req.fits) (elapse dt s))

/-- TRIAL CLEAR at a station that holds a stack: a clear that removes nothing marks nothing dirty (R49, R53). -/
def clearStack (seq : Byte) (s : State) : State :=
  if s.trial.isEmpty then respondHeld 12 seq .accepted s
  else respondHeld 12 seq .accepted (markDirty (s.setTrial []))

/-- TRIAL CLEAR as its owner takes it (R49, R186). -/
def trialClearOwner (seq : Byte) (fits : Bool) (s : State) : State := withoutBody 12 seq fits (clearStack seq) s

/-- TRIAL_CLEAR (R49, R186). -/
def execTrialClear (dt : Nat) (req : BareRequest) (s : State) : Answer :=
  .next (request 12 req.seq (trialClearOwner req.seq req.fits) (elapse dt s))

/-! ### Adoption (R50, R51) -/

/-- A non-void MOVE entry for which a test on its item number holds. -/
def anyMove (p : Nat → Bool) (stack : List TrialEntry) : Bool :=
  stack.any (fun e =>
    match e with
    | .move item _ _ voided => !voided && p item
    | .add .. => false)

/-- The number of ADD entries on a stack. -/
def countAdds (stack : List TrialEntry) : Nat := (stack.filter (fun e => !isMove e)).length

/-- The entry is a VOID MOVE. -/
def isVoid : TrialEntry → Bool
  | .move _ _ _ voided => voided
  | .add .. => false

/-- The entry would count against an incomplete map: an ADD with a class, or a non-void MOVE of a classed item
(R50 order 5). -/
def adoptsClass (s : State) : TrialEntry → Bool
  | .add _ _ _ _ _ cls => cls.isSome
  | .move item _ _ voided => !voided && (findItem item s.stowage.items).any (fun i => i.cls.isSome)

/-- The refusals of orders 1 to 5 of R50. -/
def adoptEarly (s : State) : Option ResultCode :=
  firstRefusal [(atTank s, .role), (s.trial.isEmpty, .stackEmpty), (anyMove (underClaim s) s.trial, .claimActive),
    (decide (64 < s.stowage.items.length + countAdds s.trial), .listFull),
    (s.stowage.mapIncomplete && s.trial.any (adoptsClass s), .mapFull)]

/-- The refusal of one entry above the entries of `below`; a VOID entry is skipped (R50 orders 6 to 9). -/
def entryRefusal (s : State) (below : List TrialEntry) : TrialEntry → Option ResultCode
  | .add mass pos comp length breadth cls => addEntryRefusal s mass pos comp length breadth cls below
  | .move item pos comp voided =>
    if voided then none
    else (findItem item s.stowage.items).bind (fun i => moveEntryRefusal s i pos comp below)

/-- The first entry refused, from the bottom of the stack to the top, with its stack position (R50). -/
def stackRefusal (s : State) (below : List TrialEntry) : List TrialEntry → Option (Nat × ResultCode)
  | [] => none
  | e :: rest =>
    match entryRefusal s below e with
    | some r => some (below.length + 1, r)
    | none => stackRefusal s (below ++ [e]) rest

/-- An ADD entry as the fields of an ADD ITEM with label 0 (R51). -/
def adoptedFields (mass : Int) (pos : Point) (comp : Nat) (length breadth : Int) (cls : Option Nat) : ItemArgs :=
  ⟨0, mass, pos, comp, length, breadth, cls⟩

/-- One entry is applied; the item numbers given so far are listed in stack order (R51). -/
def adoptEntry (p : List Nat × State) : TrialEntry → List Nat × State
  | .add mass pos comp length breadth cls =>
    let n := lowestFree p.2.stowage.items
    (p.1 ++ [n], addRecord (newItem n (adoptedFields mass pos comp length breadth cls)) p.2)
  | .move item pos comp voided =>
    if voided then p
    else
      match findItem item p.2.stowage.items with
      | none => p
      | some i => (p.1, changeRecord { i with planned := pos, comp := comp } p.2)

/-- An adoption that passes R50: entries applied from the bottom up, the stack emptied, the changes written as
one whole before the response. A stack of VOID entries changes no list, so nothing is written (R51, R53; log 30). -/
def adopt (seq : Byte) (s : State) : State :=
  let voids := (s.trial.filter isVoid).length
  let p := s.trial.foldl adoptEntry ([], s)
  let t := markDirty (p.2.setTrial [])
  let body : ResponseBody := .adopted p.1 voids 0
  if s.trial.all isVoid then respond 13 seq .accepted body t else acceptWrite 13 seq body t

/-- TRIAL ADOPT with the role and the body passed (R50, R51). -/
def adoptStack (seq : Byte) (s : State) : State :=
  match adoptEarly s with
  | some r => respondHeld 13 seq r s
  | none =>
    match stackRefusal s [] s.trial with
    | some (position, r) => respond 13 seq r (.adoptFailed position s.trial.length) s
    | none => adopt seq s

/-- TRIAL ADOPT as its owner takes it (R50, R51, R186). -/
def trialAdoptOwner (seq : Byte) (fits : Bool) (s : State) : State := withoutBody 13 seq fits (adoptStack seq) s

/-- TRIAL_ADOPT (R50, R51, R186). -/
def execTrialAdopt (dt : Nat) (req : BareRequest) (s : State) : Answer :=
  .next (requestUsingList 13 req.seq (trialAdoptOwner req.seq req.fits) (elapse dt s))

end Sys2Proof.Machine
end

