-- ==== Sys2Proof/Machine/Dispatch.lean ====
section
/-! DEFINITION. The dispatch of every command to its meaning, in the table's order. -/

namespace Sys2Proof.Machine

open Sys2Proof

/-- What a command does to the station, the queue of waiting commands apart. -/
def exec (i : Instr) (s : State) : Host.Outcome State Fault Refusal :=
  match i with
  | .powerOn dt => Sys2Proof.Machine.execPowerOn dt s
  | .brownOut dt => Sys2Proof.Machine.execBrownOut dt s
  | .supplyRecover dt => Sys2Proof.Machine.execSupplyRecover dt s
  | .supplyOff dt => Sys2Proof.Machine.execSupplyOff dt s
  | .restartLine dt => Sys2Proof.Machine.execRestartLine dt s
  | .restartLineRelease dt => Sys2Proof.Machine.execRestartLineRelease dt s
  | .restartResponseSent dt => Sys2Proof.Machine.execRestartResponseSent dt s
  | .memoryRead dt part => Sys2Proof.Machine.execMemoryRead dt part s
  | .memoryReadTimeout dt => Sys2Proof.Machine.execMemoryReadTimeout dt s
  | .listenTimeout dt => Sys2Proof.Machine.execListenTimeout dt s
  | .quietFilterExpiry dt => Sys2Proof.Machine.execQuietFilterExpiry dt s
  | .panelRecordInvalid dt bytes => Sys2Proof.Machine.execPanelRecordInvalid dt bytes s
  | .panelFragmentTimeout dt bytes => Sys2Proof.Machine.execPanelFragmentTimeout dt bytes s
  | .addItem dt seq args => Sys2Proof.Machine.execAddItem dt seq args s
  | .amendItem dt seq args => Sys2Proof.Machine.execAmendItem dt seq args s
  | .markOut dt seq item => Sys2Proof.Machine.execMarkOut dt seq item s
  | .cancelItem dt seq item => Sys2Proof.Machine.execCancelItem dt seq item s
  | .stowDirect dt seq args => Sys2Proof.Machine.execStowDirect dt seq args s
  | .dischargeDirect dt seq item => Sys2Proof.Machine.execDischargeDirect dt seq item s
  | .resolveItem dt seq args => Sys2Proof.Machine.execResolveItem dt seq args s
  | .listItems dt seq index => Sys2Proof.Machine.execListItems dt seq index s
  | .trialAdd dt seq args => Sys2Proof.Machine.execTrialAdd dt seq args s
  | .trialMove dt seq args => Sys2Proof.Machine.execTrialMove dt seq args s
  | .trialDrop dt req => Sys2Proof.Machine.execTrialDrop dt req s
  | .trialClear dt req => Sys2Proof.Machine.execTrialClear dt req s
  | .trialAdopt dt req => Sys2Proof.Machine.execTrialAdopt dt req s
  | .liftRequest dt seq args => Sys2Proof.Machine.execLiftRequest dt seq args s
  | .liftAbort dt req => Sys2Proof.Machine.execLiftAbort dt req s
  | .setDown dt seq args => Sys2Proof.Machine.execSetDown dt seq args s
  | .readCondition dt seq flavour => Sys2Proof.Machine.execReadCondition dt seq flavour s
  | .readView dt req => Sys2Proof.Machine.execReadView dt req s
  | .readStatus dt req => Sys2Proof.Machine.execReadStatus dt req s
  | .readEvents dt req => Sys2Proof.Machine.execReadEvents dt req s
  | .setMask dt seq codes => Sys2Proof.Machine.execSetMask dt seq codes s
  | .readJournal dt seq index => Sys2Proof.Machine.execReadJournal dt seq index s
  | .switchBank dt req => Sys2Proof.Machine.execSwitchBank dt req s
  | .pumpManual dt seq direction => Sys2Proof.Machine.execPumpManual dt seq direction s
  | .pumpAuto dt seq mode => Sys2Proof.Machine.execPumpAuto dt seq mode s
  | .restart dt req => Sys2Proof.Machine.execRestart dt req s
  | .retainedWriteComplete dt => Sys2Proof.Machine.execRetainedWriteComplete dt s
  | .rollcall dt bytes => Sys2Proof.Machine.execRollcall dt bytes s
  | .share dt bytes => Sys2Proof.Machine.execShare dt bytes s
  | .claim dt bytes => Sys2Proof.Machine.execClaim dt bytes s
  | .yield dt bytes => Sys2Proof.Machine.execYield dt bytes s
  | .done dt bytes => Sys2Proof.Machine.execDone dt bytes s
  | .tag dt bytes => Sys2Proof.Machine.execTag dt bytes s
  | .frameCheckFail dt bytes => Sys2Proof.Machine.execFrameCheckFail dt bytes s
  | .lineIdleTimeout dt bytes => Sys2Proof.Machine.execLineIdleTimeout dt bytes s
  | .fragmentReceived dt bytes => Sys2Proof.Machine.execFragmentReceived dt bytes s
  | .txAttemptStart dt => Sys2Proof.Machine.execTxAttemptStart dt s
  | .txCollision dt => Sys2Proof.Machine.execTxCollision dt s
  | .txBackoffExpiry dt => Sys2Proof.Machine.execTxBackoffExpiry dt s
  | .txComplete dt => Sys2Proof.Machine.execTxComplete dt s
  | .shareIntervalExpiry dt => Sys2Proof.Machine.execShareIntervalExpiry dt s
  | .shareSpacingExpiry dt => Sys2Proof.Machine.execShareSpacingExpiry dt s
  | .rollcallAnswerDue dt => Sys2Proof.Machine.execRollcallAnswerDue dt s
  | .tagRotation dt => Sys2Proof.Machine.execTagRotation dt s
  | .peerStale dt station => Sys2Proof.Machine.execPeerStale dt station s
  | .peerLost dt station => Sys2Proof.Machine.execPeerLost dt station s
  | .frameCheckWindowClose dt => Sys2Proof.Machine.execFrameCheckWindowClose dt s
  | .heelFilterExpiry dt => Sys2Proof.Machine.execHeelFilterExpiry dt s
  | .solverIntervalExpiry dt => Sys2Proof.Machine.execSolverIntervalExpiry dt s
  | .passStart dt => Sys2Proof.Machine.execPassStart dt s
  | .publish dt => Sys2Proof.Machine.execPublish dt s
  | .backoffExpiry dt => Sys2Proof.Machine.execBackoffExpiry dt s
  | .liftOverdue dt => Sys2Proof.Machine.execLiftOverdue dt s
  | .hookRecord dt bytes => Sys2Proof.Machine.execHookRecord dt bytes s
  | .levelsRecord dt bytes => Sys2Proof.Machine.execLevelsRecord dt bytes s
  | .sensorRecordDiscard dt bytes => Sys2Proof.Machine.execSensorRecordDiscard dt bytes s
  | .sensorHolding dt => Sys2Proof.Machine.execSensorHolding dt s
  | .sensorLost dt => Sys2Proof.Machine.execSensorLost dt s
  | .deadIntervalExpiry dt => Sys2Proof.Machine.execDeadIntervalExpiry dt s
  | .lineLevelChange dt line level => Sys2Proof.Machine.execLineLevelChange dt line level s
  | .inputFilterExpiry dt line => Sys2Proof.Machine.execInputFilterExpiry dt line s
  | .mapSettleExpiry dt => Sys2Proof.Machine.execMapSettleExpiry dt s

end Sys2Proof.Machine
end

