-- ==== Sys2Proof/Safety.lean ====
section
/-! DEFINITION. What a safe run keeps, and the words the claims are stated in: the blocks of State, frames over
them, responses, and the invariants that every step keeps. -/

namespace Sys2Proof.Machine

open Sys2Proof

/-! ### Blocks and frames -/

/-- The fields of State, by name. -/
inductive Block
  | pending | station | power | table | stowage | trial | solver | view | link | claim | sensor | crane | lines
  | pump | report | journal | memory | panel
  deriving DecidableEq, Repr

/-- One block is alike in two states. -/
def sameBlock (b : Block) (s t : State) : Prop :=
  match b with
  | .pending => t.pending = s.pending
  | .station => t.station = s.station
  | .power => t.power = s.power
  | .table => t.table = s.table
  | .stowage => t.stowage = s.stowage
  | .trial => t.trial = s.trial
  | .solver => t.solver = s.solver
  | .view => t.view = s.view
  | .link => t.link = s.link
  | .claim => t.claim = s.claim
  | .sensor => t.sensor = s.sensor
  | .crane => t.crane = s.crane
  | .lines => t.lines = s.lines
  | .pump => t.pump = s.pump
  | .report => t.report = s.report
  | .journal => t.journal = s.journal
  | .memory => t.memory = s.memory
  | .panel => t.panel = s.panel

/-- Every block but those listed is alike in `s` and `t`. -/
def onlyChanges (bs : List Block) (s t : State) : Prop := ∀ b : Block, b ∉ bs → sameBlock b s t

/-- The blocks an activity event may change (R119, R121): the station state with its quiet filter, the SHARE
placeholder, and WAKE with the alarm condition. -/
def activityBlocks : List Block := [.station, .link, .report]

/-! ### Commands -/

/-- The milliseconds a command carries (log 1). -/
def elapsedBy : Instr → Nat
  | .powerOn dt | .brownOut dt | .supplyRecover dt | .supplyOff dt | .restartLine dt | .restartLineRelease dt
  | .restartResponseSent dt | .memoryReadTimeout dt | .listenTimeout dt | .quietFilterExpiry dt
  | .retainedWriteComplete dt | .txAttemptStart dt | .txCollision dt | .txBackoffExpiry dt | .txComplete dt
  | .shareIntervalExpiry dt | .shareSpacingExpiry dt | .rollcallAnswerDue dt | .tagRotation dt
  | .frameCheckWindowClose dt | .heelFilterExpiry dt | .solverIntervalExpiry dt | .passStart dt | .publish dt
  | .backoffExpiry dt | .liftOverdue dt | .sensorHolding dt | .sensorLost dt | .deadIntervalExpiry dt
  | .mapSettleExpiry dt => dt
  | .memoryRead dt _ => dt
  | .panelRecordInvalid dt _ | .panelFragmentTimeout dt _ | .rollcall dt _ | .share dt _ | .claim dt _
  | .yield dt _ | .done dt _ | .tag dt _ | .frameCheckFail dt _ | .lineIdleTimeout dt _
  | .fragmentReceived dt _ | .hookRecord dt _ | .levelsRecord dt _ | .sensorRecordDiscard dt _ => dt
  | .trialDrop dt _ | .trialClear dt _ | .trialAdopt dt _ | .liftAbort dt _ | .readView dt _
  | .readStatus dt _ | .readEvents dt _ | .switchBank dt _ | .restart dt _ => dt
  | .markOut dt _ _ | .cancelItem dt _ _ | .dischargeDirect dt _ _ | .listItems dt _ _ | .readJournal dt _ _ => dt
  | .addItem dt _ _ => dt
  | .amendItem dt _ _ => dt
  | .stowDirect dt _ _ => dt
  | .resolveItem dt _ _ => dt
  | .trialAdd dt _ _ => dt
  | .trialMove dt _ _ => dt
  | .liftRequest dt _ _ => dt
  | .setDown dt _ _ => dt
  | .readCondition dt _ _ => dt
  | .setMask dt _ _ => dt
  | .pumpManual dt _ _ => dt
  | .pumpAuto dt _ _ => dt
  | .peerStale dt _ | .peerLost dt _ | .inputFilterExpiry dt _ => dt
  | .lineLevelChange dt _ _ => dt

/-- The request code and sequence number of a request record (R188). -/
def requestOf : Instr → Option (Nat × Byte)
  | .addItem _ q _ => some (1, q)
  | .amendItem _ q _ => some (2, q)
  | .markOut _ q _ => some (3, q)
  | .cancelItem _ q _ => some (4, q)
  | .stowDirect _ q _ => some (5, q)
  | .dischargeDirect _ q _ => some (6, q)
  | .resolveItem _ q _ => some (7, q)
  | .listItems _ q _ => some (8, q)
  | .trialAdd _ q _ => some (9, q)
  | .trialMove _ q _ => some (10, q)
  | .trialDrop _ r => some (11, r.seq)
  | .trialClear _ r => some (12, r.seq)
  | .trialAdopt _ r => some (13, r.seq)
  | .liftRequest _ q _ => some (14, q)
  | .liftAbort _ r => some (15, r.seq)
  | .setDown _ q _ => some (16, q)
  | .readCondition _ q _ => some (17, q)
  | .readView _ r => some (18, r.seq)
  | .readStatus _ r => some (19, r.seq)
  | .readEvents _ r => some (20, r.seq)
  | .setMask _ q _ => some (21, q)
  | .readJournal _ q _ => some (22, q)
  | .switchBank _ r => some (23, r.seq)
  | .pumpManual _ q _ => some (24, q)
  | .pumpAuto _ q _ => some (25, q)
  | .restart _ r => some (26, r.seq)
  | _ => none

/-- The commands that carry a frame's bytes, with the bytes (R107, R108). -/
def frameBytes : Instr → Option (List Byte)
  | .rollcall _ bs | .share _ bs | .claim _ bs | .yield _ bs | .done _ bs | .tag _ bs
  | .frameCheckFail _ bs => some bs
  | _ => none

/-! ### Requests and responses (R187, R188) -/

/-- A request of a code reaches its owner: inputs are taken, no request is in progress, and the state admits it. -/
abbrev admits (code : Nat) (s : State) : Prop :=
  takesInputs s = true ∧ s.panel.inProgress = none ∧ admittedIn s.station.state code = true

/-- `t` has answered with one response more than `s`, and no request is in progress. -/
def answers (r : Response) (s t : State) : Prop := t.panel = ⟨none, s.panel.out ++ [r]⟩

/-- `t` holds the request in progress until its retained write is complete: the list and the journal of `t` are being
written, and `r` waits (R38, R187). -/
def awaitsWrite (r : Response) (s t : State) : Prop :=
  t.panel = ⟨some ⟨r.code, r.seq⟩, s.panel.out⟩ ∧
    t.memory.writing = some ⟨⟨t.stowage.items, t.journal⟩, some r⟩

/-! ### What a command finds, and what it leaves -/

/-- The station as the owner of a request takes it: `dt` ms have passed and the activity event has acted (R119, R121). -/
def asTaken (dt : Nat) (s : State) : State := activity (elapse dt s)

/-- The station as an owner that uses the item list of another block takes the request: a write of the list that was in
progress is complete (R38). -/
def asUsed (dt : Nat) (s : State) : State := completeWrite (asTaken dt s)

/-- `t` is `u` with one response more, and no request in progress. -/
def responded (r : Response) (u t : State) : Prop := t = u.setPanel ⟨none, u.panel.out ++ [r]⟩

/-- `t` is `v` with the list and the journal being written as one whole, and the response waiting for the write; a write
that was in progress is complete, its contents with their check (R38, R187, R194). -/
def written (r : Response) (v t : State) : Prop :=
  onlyChanges [.memory, .panel] v t ∧ awaitsWrite r v t ∧
    (t.memory.contents, t.memory.check) = match v.memory.writing with
      | some w => (w.contents, retainedCheck w.contents)
      | none => (v.memory.contents, v.memory.check)

/-- The rotation pointer after the record of a number is removed (R118). -/
def rotationWithout (n : Nat) (u : State) : Option RotationPointer :=
  match placeOf n u.stowage.items with
  | none => u.link.rotation
  | some j => u.link.rotation.map (pointerAfterRemoval j)

/-- A place of the list comes before another in a rotation turn that starts from a place and goes on from the end of the list
to its start (R118). -/
def turnBefore (start m k : Nat) : Prop :=
  (start ≤ m ∧ (m < k ∨ k < start)) ∨ (m < k ∧ k < start)

/-- The effects of an accepted change to the item list at a working station out of QUIET: the new list and trial
stack, the TAG of the change, the SHARE cause behind it, the dirty mark and the activity event (R41, R48, R113). -/
def listChange (before after : Option Item) (items : List Item) (trial : List TrialEntry)
    (rotation : Option RotationPointer) (u v : State) : Prop :=
  v.stowage = { u.stowage with items := items } ∧ v.trial = trial ∧ v.solver = { u.solver with dirty := true } ∧
    v.link = { (tagChange before after u).link with
      placeholder := true, wakeCause := false, rotation := rotation } ∧
    v.report = (tagChange before after u).report ∧ v.station = (activity u).station ∧
    onlyChanges [.stowage, .trial, .solver, .link, .report, .station] u v

/-- A fixed frame stands behind the last one, or, where 32 wait, is not queued and LINK_TX is latched (R113). -/
def frameQueued (f : Fixed) (u e : State) : Prop :=
  (u.link.queue.length < 32 → e = u.setLink { u.link with queue := u.link.queue ++ [f] }) ∧
    (32 ≤ u.link.queue.length → .linkTx ∈ e.report.latched ∧ onlyChanges [.report] u e)

/-- The end of an item movement: its DONE stands behind the last fixed frame, or LINK_TX is latched; its record stands
last in the write bank, or JOURNAL_FULL is latched (R36, R113, R182). -/
def movementEnds (b : DoneBody) (u e : State) : Prop :=
  onlyChanges [.link, .report, .journal] u e ∧
    (u.link.queue.length < 32 → e.link = { u.link with queue := u.link.queue ++ [.done b] }) ∧
    (32 ≤ u.link.queue.length → e.link = u.link ∧ .linkTx ∈ e.report.latched) ∧
    (journalRoom u = true → e.journal =
      setWriteBank u.journal (writeBank u.journal ++ [journalOf (u.ownNumber.getD 0) b u.now])) ∧
    (journalRoom u = false → e.journal = u.journal ∧ .journalFull ∈ e.report.latched) ∧
    (u.link.queue.length < 32 → journalRoom u = true → e.report = u.report)

/-- A change of the own claim at a station in RUN: the unit given, the dirty mark, the SHARE cause, the quiet filter,
the overload mark and the permits (R55, R115, R119, R153, R154). -/
def claimChange (c : ClaimUnit) (u v : State) : Prop :=
  v.claim = c ∧ v.solver = { u.solver with dirty := true } ∧ v.link = { u.link with placeholder := true, wakeCause := false } ∧
    v.station = { u.station with
      quietStart := if quietConditions v then some (u.station.quietStart.getD u.now) else none } ∧
    v.crane = { u.crane with
      overload := u.crane.overload && decide (c.state = .committed), permits := permitsOf v } ∧
    onlyChanges [.claim, .solver, .link, .station, .crane] u v

/-- Every block after a reset of a cause, from the state before it (R193, R194 and the reset values of every chapter).
The item list and the journal are as retained where the CRC-32 of the contents is the stored check, else empty; the raw
levels of the pins and the output logs are not the station's to reset. -/
def afterReset (cause : ResetCause) (s t : State) : Prop :=
  t.station = { State.reset.station with cause := cause, retainedPassed := retainedPasses s.memory } ∧
    t.power = State.reset.power ∧ t.table = State.reset.table ∧ t.trial = [] ∧ t.solver = State.reset.solver ∧
    t.view = State.reset.view ∧ t.claim = State.reset.claim ∧ t.sensor = State.reset.sensor ∧
    t.crane = State.reset.crane ∧ t.pump = State.reset.pump ∧ t.report = State.reset.report ∧
    t.stowage.map = [] ∧ t.stowage.mapIncomplete = false ∧ t.stowage.settleStart = none ∧
    (s.memory.check = crc32 (retainedBytes s.memory.contents) →
      t.stowage.items = s.memory.contents.items.map resetItem ∧ t.journal = s.memory.contents.journal) ∧
    (s.memory.check ≠ crc32 (retainedBytes s.memory.contents) → t.stowage.items = [] ∧ t.journal = ⟨[], [], true⟩) ∧
    t.memory = ⟨⟨t.stowage.items, t.journal⟩, crc32 (retainedBytes ⟨t.stowage.items, t.journal⟩), none⟩ ∧
    t.link = { State.reset.link with draws := s.link.draws, out := s.link.out } ∧ t.lines.applied = false ∧
    t.lines.inputs = s.lines.inputs.map (fun l => ⟨l.raw, 0, false⟩) ∧ t.lines.frozen = none ∧ t.panel = ⟨none, s.panel.out⟩ ∧
    t.pending = s.pending

/-- The bytes are a frame of another station, and the link controller receives it (R96, R105, R107, R193). -/
abbrev frameTaken (f : Frame) (bytes : List Byte) (u : State) : Prop :=
  receiving u = true ∧ frameOf bytes = some f ∧ u.ownNumber ≠ some f.source

/-- The peer view takes a new list of entries: the clean-view condition is evaluated and the dirty mark set (R55, R97). -/
def viewChange (entries : List PeerEntry) (u t : State) : Prop :=
  t.view = { u.view with entries := entries, clean := cleanNow t } ∧ t.solver = { u.solver with dirty := true }

/-- The commands by which something outside the station asks to be taken in, or a frame goes out: none of them acts while
a brown-out or the restart line holds a reset pending (R193). -/
def crossesPort : Instr → Bool
  | .lineIdleTimeout .. | .hookRecord .. | .levelsRecord .. | .sensorRecordDiscard .. | .inputFilterExpiry ..
  | .txAttemptStart .. | .txCollision .. | .txComplete .. => true
  | c => (requestOf c).isSome || (frameBytes c).isSome

/-- The requests each station state admits, by their codes (R188). -/
def stateAdmits (st : StationState) (code : Nat) : Prop :=
  match st with
  | .start | .halt => code = 19 ∨ code = 26
  | .listen => code ≠ 14
  | .run | .quiet => True
  | .fault => code = 18 ∨ code = 19 ∨ code = 26

/-- The table store while the commissioning memory is read: the parts answered so far, the unanswered attempts at the read
in hand, and the time it began (R3). -/
def readSoFar (h : Option Header) (i : Option (TableImage × List Byte)) (v : Option Word32)
    (c : Option (StationSection × List Byte)) (attempts readAt : Nat) : TableStore :=
  { TableStore.cleared with
    header := h, image := i.map (·.1), imageCrc := i.map (fun q => crc32 q.2), tableCheck := v
    stationSection := c.map (·.1), sectionCrc := c.map (fun q => crc32 q.2), attempts := attempts
    readAt := readAt }

/-- The item list an adoption leaves and the numbers it gives, entry by entry from the bottom of the stack (R51). -/
def adoptedItems : List Item → List TrialEntry → List Nat × List Item
  | items, [] => ([], items)
  | items, .add mass pos comp length breadth cls :: rest =>
    let n := lowestFree items
    let i := newItem n ⟨0, mass, pos, comp, length, breadth, cls⟩
    let q := adoptedItems (items ++ [i]) rest
    (n :: q.1, q.2)
  | items, .move item pos comp voided :: rest =>
    if voided then adoptedItems items rest
    else
      match findItem item items with
      | none => adoptedItems items rest
      | some i => adoptedItems (replaceItem { i with planned := pos, comp := comp } items) rest

/-- The station after the TAGs of an adoption are queued, entry by entry from the bottom of the stack (R41, R51). -/
def adoptedTags : List Item → List TrialEntry → State → State
  | _, [], u => u
  | items, .add mass pos comp length breadth cls :: rest, u =>
    let i := newItem (lowestFree items) ⟨0, mass, pos, comp, length, breadth, cls⟩
    adoptedTags (items ++ [i]) rest (tagChange none (some i) u)
  | items, .move item pos comp voided :: rest, u =>
    if voided then adoptedTags items rest u
    else
      match findItem item items with
      | none => adoptedTags items rest u
      | some i =>
        let j := { i with planned := pos, comp := comp }
        adoptedTags (replaceItem j items) rest (tagChange (some i) (some j) u)

/-! ### Solutions (R61, R69) -/

/-- `t` is the sum of the terms `ts` over the sections `xs`, field by field. A term without an aft pair for a section adds
nothing there (R61, R69, R110). -/
def isSum (xs : List Int) (ts : List Aggregate) (t : Aggregate) : Prop :=
  t.mass = (ts.map (·.mass)).sum ∧ t.mx = (ts.map (·.mx)).sum ∧ t.my = (ts.map (·.my)).sum ∧
    t.mz = (ts.map (·.mz)).sum ∧ t.fs = (ts.map (·.fs)).sum ∧ t.aft.length = xs.length ∧
    ∀ k a, t.aft[k]? = some a → a.mass = (ts.map (fun b => (b.aft.getD k ⟨0, 0⟩).mass)).sum ∧
      a.moment = (ts.map (fun b => (b.aft.getD k ⟨0, 0⟩).moment)).sum

/-- A point term: its mass, exact products and free-surface moment, and the aft pair of every section forward of it (R61). -/
def termAt (xs : List Int) (m : Int) (p : Point) (fs : Int) : Aggregate :=
  { mass := m, mx := m * p.x, my := m * p.y, mz := m * p.z, fs := fs
    aft := xs.map (fun x => if p.x < x then ⟨m, m * (x - p.x)⟩ else ⟨0, 0⟩) }

/-- The own hook term: at a CRANE station whose held load is at or above the pick threshold, that load at the hook
position (R62, R149). -/
def hookHeld (u : State) : Option HookTerm :=
  let d := u.craneData
  if u.role = .crane then
    match u.crane.held with
    | some h =>
      if d.pick ≤ h.load then some ⟨h.load, radiusPoint d.pedestalX d.pedestalY h.radius h.height h.slew⟩ else none
    | none => none
  else none

/-- The own tank terms, mass, point and free-surface moment from each held level; none while the levels are absent
(R167). -/
def tanksHeld (u : State) : List PointTerm :=
  match u.pump.levels with
  | some ls => (u.ownTanks.zip ls).map (fun ⟨⟨_, k⟩, level⟩ =>
      { mass := roundDiv (k.capacity * level) k.height, point := ⟨k.x, k.y, k.floorZ + roundDiv level 2⟩
        fsm := if 0 < level ∧ level < k.height then k.slackFsm else 0 })
  | none => []

/-- The own claim's record, its in-base mark set while its item is PLANNED_OUT (R123). -/
def recordMarked (u : State) : Option ClaimRecord :=
  u.claim.record.map (fun r => { r with source := r.source.map (fun v => { v with
    inBase := (findItem r.item u.stowage.items).any (fun i => decide (i.state = .plannedOut)) }) })

/-! ### The view as of the own timer (R92, R95, R97) -/

/-- The state of an entry with every timeout that has passed in force: 3 and 10 periods after it was last heard, 12 and
40 for a quiet peer, the own period where its own is absent (R92, R95). -/
def peerStateShown (u : State) (e : PeerEntry) : PeerState :=
  let quiet := e.share.any (·.quiet)
  let period := match e.roll with
    | some r => r.period.toNat
    | none => u.period
  if e.state = .lost ∨ e.lastHeard + period * (if quiet then 40 else 10) ≤ u.now then .lost
  else if e.state = .stale ∨ e.lastHeard + period * (if quiet then 12 else 3) ≤ u.now then .stale
  else .fresh

/-- The five parts of the clean-view condition with every timeout that has passed in force, outside HALT (R95, R97;
log 32). -/
def partsShown (u : State) : List Bool :=
  [u.view.entries.all (fun e => decide (peerStateShown u e = .fresh)),
    u.view.entries.all (fun e => decide (e.identity = .matching)),
    !(u.view.windowOpen && u.view.failureAt.any (fun a => decide (u.now < a + 10 * u.period))),
    decide (u.station.state ≠ .fault) && (decide (u.role = .desk) ||
      (decide (u.sensor.port = .fresh) && u.sensor.lastRecord.all (fun a => decide (u.now < a + 300)))),
    !u.inclinometer || (u.view.agreement != u.view.heelFilter.any (fun a => decide (a + 10000 ≤ u.now)))]

/-! ### What validation checks (R4 to R15)

Each list holds the conditions of one check in the order of its rule, each beside the detail its failure records. -/

/-- `lo..hi` holds `v`. -/
def inside (lo v hi : Int) : Prop := lo ≤ v ∧ v ≤ hi

/-- A check gives the detail of the first of its conditions that fails, and none when every one holds. -/
def failsAt (checks : List (Nat × Prop)) (o : Option Nat) : Prop :=
  ∀ d, o = some d ↔ ∃ as p bs, checks = as ++ (d, p) :: bs ∧ ¬ p ∧ ∀ q ∈ as, q.2

/-- Row `k` of the hull rows fits: its fields, its D and T above those of row k − 1, and its f_k not falling (R5). -/
def rowFits (t : TableImage) (k : Nat) (r : HullRow) : Prop :=
  inside 1 r.t 30000 ∧ inside 1 r.d 2000000 ∧ inside 1 r.km 50000 ∧ inside 0 r.lcb t.particulars.lpp ∧
    inside 0 r.lcf t.particulars.lpp ∧ inside 1 r.mtm 1000000000 ∧
    (∀ q ∈ r.pairs.zip t.sections, inside 0 q.1.f 65536 ∧ inside 0 q.1.a q.2.x) ∧
    (∀ o ∈ (t.rows.take k).getLast?, o.d < r.d ∧ o.t < r.t) ∧
    ∀ q ∈ r.pairs.zip r.pairs.tail, q.1.f ≤ q.2.f

/-- ROWS, by row number from 0 (R5). -/
def rowsChecks (t : TableImage) : List (Nat × Prop) := t.rows.zipIdx.map (fun q => (q.2, rowFits t q.2 q.1))

/-- The aft sums of check section `k` + 1 fit: the mass not below the one before it, and both 0 together (R6). -/
def aftFits (l : Lightship) (k : Nat) (w : AftSum) : Prop :=
  inside 0 w.mass l.mass ∧ (∀ o ∈ (l.aft.take k).getLast?, o.mass ≤ w.mass) ∧ inside 0 w.moment 1000000000000 ∧
    (w.moment = 0 ↔ w.mass = 0)

/-- LIGHTSHIP, 0 for the mass and the centre, else by section number; `last` is D_(N−1) (R6). -/
def lightshipChecks (t : TableImage) (last : Int) : List (Nat × Prop) :=
  let l := t.lightship
  let b := t.particulars.halfBreadth
  (0, inside 1 l.mass (last - 1) ∧ inside 0 l.centre.x t.particulars.lpp ∧ inside (-b) l.centre.y b ∧
    inside 1 l.centre.z 50000) :: l.aft.zipIdx.map (fun q => (q.2 + 1, aftFits l q.2 q.1))

/-- SECTIONS, by section number (R7). -/
def sectionsChecks (t : TableImage) : List (Nat × Prop) :=
  t.sections.zipIdx.map (fun q => (q.2 + 1,
    inside 1 q.1.x (t.particulars.lpp - 1) ∧ inside 1 q.1.sfLimit 1000000 ∧ inside 0 q.1.sfBand q.1.sfLimit ∧
      inside 1 q.1.hogLimit 1000000000 ∧ inside 0 q.1.hogBand q.1.hogLimit ∧ inside 1 q.1.sagLimit 1000000000 ∧
      inside 0 q.1.sagBand q.1.sagLimit ∧ ∀ o ∈ (t.sections.take q.2).getLast?, o.x < q.1.x))

/-- The tank data of a TANK compartment fit (R9). -/
def tankFits (c : Compartment) (k : TankData) : Prop :=
  inside 1 k.capacity 200000 ∧ inside 1 k.height 30000 ∧ inside c.zFrom k.floorZ (c.zTo - k.height) ∧
    inside c.xFrom k.x c.xTo ∧ inside c.yFrom k.y c.yTo ∧ inside 0 k.slackFsm 1000000000000 ∧
    inside 0 k.minLevel (k.height - 1) ∧ inside (k.minLevel + 1) k.maxLevel k.height

/-- A compartment record fits: its kind of the table, its fields, its bounds in order, and a pressure limit or tank data as its kind
has (R8). -/
def compartmentFits (c : Compartment) : Prop :=
  c.kind ≠ none ∧ inside 1 c.owner 15 ∧
    (∀ v ∈ [c.xFrom, c.xTo, c.yFrom, c.yTo, c.zFrom, c.zTo], inside (-1000000) v 1000000) ∧
    c.xFrom < c.xTo ∧ c.yFrom < c.yTo ∧ c.zFrom < c.zTo ∧ inside 1 c.maxMass 2000000 ∧
    (c.kind = some .tank → c.pressure = none ∧ c.tank ≠ none ∧ ∀ k ∈ c.tank, tankFits c k) ∧
    (c.kind ≠ some .tank → c.tank = none ∧ c.pressure ≠ none ∧ ∀ v ∈ c.pressure, inside 1 v 1000000)

/-- COMPARTMENTS, by compartment id (R8, R9). -/
def compartmentsChecks (t : TableImage) : List (Nat × Prop) :=
  t.compartments.zipIdx.map (fun q => (q.2 + 1, compartmentFits q.1))

/-- STATION_FIELDS, the common fields 2 to 8 (R11). -/
def commonChecks (c : StationSection) : List (Nat × Prop) :=
  [(2, c.role ≠ none), (3, c.period = 0 ∨ (inside 100 c.period 2000 ∧ c.period % 100 = 0)),
    (4, c.hold = 0 ∨ inside 200 c.hold 2000), (5, c.quiet ≠ none), (6, inside 0 c.envelopeMass 200000),
    (7, ∀ v ∈ [c.envelopePoint.x, c.envelopePoint.y, c.envelopePoint.z], inside (-1000000) v 1000000),
    (8, c.filter.length = 4 ∧ ∀ e ∈ c.filter, inside 0 e.station 15 ∧ inside 0 e.cls 9)]

/-- STATION_FIELDS, the crane data, 20 plus the position (R12). -/
def craneChecks (p : Particulars) (c : CraneData) : List (Nat × Prop) :=
  [(21, inside 0 c.pedestalX p.lpp ∧ inside (-p.halfBreadth) c.pedestalY p.halfBreadth), (22, inside 1 c.jibHead 100000),
    (23, inside 0 c.rmin 99999), (24, inside (c.rmin + 1) c.rmax 100000), (25, inside 1 c.swl 100000),
    (26, inside 1 c.pick c.swl), (27, inside 0 c.release (c.pick - 1)), (28, inside 0 c.overloadTol c.swl),
    (29, inside 0 c.rigging 10000), (30, inside 0 c.radiusMargin (c.rmax - c.rmin)), (31, inside 0 c.slewMargin 255),
    (32, inside 1 c.hookMassThreshold 10000), (33, inside 1 c.hookPosThreshold 10000),
    (34, inside 1 c.liftTimeLimit 60), (35, c.inclinometer ≠ none),
    (36, (c.inclinometer = some true → c.heelTolerance ≠ none) ∧ (c.inclinometer ≠ some true → c.heelTolerance = none) ∧
      ∀ v ∈ c.heelTolerance, inside 1 v 999)]

/-- STATION_FIELDS, the pump data, 40 plus the position; `count` is C (R13). -/
def pumpChecks (count : Nat) (p : PumpData) : List (Nat × Prop) :=
  [(41, inside 1 p.portTank count), (42, inside 1 p.stbdTank count ∧ p.stbdTank ≠ p.portTank),
    (43, inside 1 p.startBand 999), (44, inside 0 p.stopBand (p.startBand - 1)), (45, inside 0 p.deadSteps 15),
    (46, p.autoDefault ≠ none), (47, inside 1 p.tankThreshold 10000)]

/-- STATION_FIELDS: the common fields, then what crane data and pump data the section holds (R11 to R13). -/
def fieldsChecks (t : TableImage) (c : StationSection) : List (Nat × Prop) :=
  commonChecks c ++ c.crane.toList.flatMap (craneChecks t.particulars) ++
    c.pump.toList.flatMap (pumpChecks t.compartments.length)

/-- The entry of a line that `before` precede fits: a function of the table, allowed in the role, and none but INPUT, the constant
outputs and ALARM on more than one line (R14). -/
def lineFits (role : Role) (before : List LineEntry) (e : LineEntry) : Prop :=
  e.function ≠ none ∧ ∀ f ∈ e.function,
    (f ∈ [.hoistPermit, .slewCwPermit, .slewCcwPermit, .outreachPermit, .localStop, .setdownButton] → role = .crane) ∧
    (f ∈ [.pumpPs, .pumpSp] → role = .tank) ∧
    (f ∉ [.input, .outputLow, .outputHigh, .alarm] → ∀ o ∈ before, o.function ≠ some f)

/-- LINES, by line number, and then 0 for a line the role requires and lacks (R14; log 49). -/
def linesChecks (role : Role) (lines : List LineEntry) : List (Nat × Prop) :=
  let carried := fun f => some f ∈ lines.map (·.function)
  lines.zipIdx.map (fun q => (q.2 + 1, lineFits role (lines.take q.2) q.1)) ++
    [(0, (role = .crane → carried .hoistPermit) ∧ (role = .tank → carried .pumpPs ∧ carried .pumpSp))]

/-- The tank data of the own TANK compartment of an id (R15). -/
def ownTankData (t : TableImage) (number id : Int) : Option TankData :=
  (t.compartments[id.toNat - 1]?).bind (fun k =>
    if 1 ≤ id ∧ k.owner = number ∧ k.kind = some .tank then k.tank else none)

/-- ROLE_SECTION, the numbered conditions of the own role (R15). -/
def roleChecks (t : TableImage) (c : StationSection) (role : Role) : List (Nat × Prop) :=
  let own := t.compartments.filter (fun k => decide (k.owner = c.number))
  let dry := own ≠ [] ∧ ∀ k ∈ own, k.kind ≠ some .tank
  let port := c.pump.bind (fun p => ownTankData t c.number p.portTank)
  let stbd := c.pump.bind (fun p => ownTankData t c.number p.stbdTank)
  match role with
  | .crane => [(1, c.crane ≠ none ∧ c.pump = none), (2, dry), (3, 1 ≤ c.envelopeMass)]
  | .desk => [(4, c.crane = none ∧ c.pump = none), (5, dry), (6, c.envelopeMass = 0)]
  | .tank =>
    [(7, c.pump ≠ none ∧ c.crane = none), (8, 2 ≤ own.length ∧ own.length ≤ 8 ∧ ∀ k ∈ own, k.kind = some .tank),
      (9, port ≠ none ∧ stbd ≠ none), (10, ∀ a ∈ port, ∀ b ∈ stbd, a.y < 0 ∧ 0 < b.y), (11, c.envelopeMass = 0)]

/-! ### Invariants -/

/-- The panel port holds one request at a time: a response that waits for a retained write belongs to the request in
progress, and a pending LIFT REQUEST is the request in progress (R187). -/
def portKept (s : State) : Prop :=
  (∀ w r, s.memory.writing = some w → w.response = some r →
    s.panel.inProgress = some ⟨r.code, r.seq⟩ ∧ s.claim.pending = false) ∧
  (s.claim.pending = true → s.claim.state = .probing ∧ ∃ q, s.panel.inProgress = some ⟨14, q⟩)

/-- The fields of a record are present as its state gives (R22). -/
def itemShape (i : Item) : Prop :=
  match i.state with
  | .plannedIn | .unresolved => i.direction = none ∧ i.stowed = none ∧ i.landing = none
  | .stowed | .plannedOut => i.direction = none ∧ i.stowed.isSome ∧ i.landing = none
  | .slung => i.direction.isSome ∧ i.stowed = none ∧ i.landing = none
  | .landed => i.direction.isSome ∧ i.stowed = none ∧ i.landing.isSome

/-- A list of records: at most 64, numbers in 1..255 and no two alike, each of the shape of its state (R21, R22). -/
def listKept (items : List Item) : Prop :=
  items.length ≤ 64 ∧ (items.map (·.number)).Nodup ∧
    ∀ i ∈ items, 1 ≤ i.number ∧ i.number ≤ 255 ∧ itemShape i

/-- The item list, and every copy of it in retained memory, is as R21 and R22 give; the stored check is that of the
retained contents (R194). -/
def stowageKept (s : State) : Prop :=
  listKept s.stowage.items ∧ listKept s.memory.contents.items ∧
    (∀ w, s.memory.writing = some w → listKept w.contents.items) ∧
    s.memory.check = crc32 (retainedBytes s.memory.contents)

/-- Every MOVE entry that is not VOID names a PLANNED_IN record of the item list (R48, R52). -/
def movesKept (s : State) : Prop :=
  ∀ n p c, TrialEntry.move n p c false ∈ s.trial →
    ∃ i ∈ s.stowage.items, i.number = n ∧ i.state = .plannedIn

/-- A claim record is as the claim state gives: present in every state but NONE, its state field in force in
ANNOUNCED and COMMITTED alone (R123, R125). -/
def claimRecordKept (c : ClaimUnit) : Prop :=
  match c.state with
  | .none => c.record = none
  | .probing | .backoff => ∃ r, c.record = some r ∧ r.phase = none
  | .announced => ∃ r, c.record = some r ∧ r.phase = some .announced
  | .committed => ∃ r, c.record = some r ∧ r.phase = some .committed

/-- The claim unit: its record and times, the counts in their ranges, no claim outside RUN, and none while the quiet
filter runs (R119, R125, R126, R131). -/
def claimKept (s : State) : Prop :=
  claimRecordKept s.claim ∧ (s.claim.state ≠ .none → s.station.state = .run) ∧
    (s.station.quietStart.isSome → s.claim.state = .none) ∧
    1 ≤ s.claim.nextNumber ∧ s.claim.nextNumber ≤ 255 ∧ s.claim.withdrawals ≤ 3 ∧
    (s.claim.state ≠ .none → s.claim.withdrawals ≤ 2) ∧
    (s.claim.holdExpiry.isSome ↔ s.claim.state = .announced) ∧
    (s.claim.backoffExpiry.isSome ↔ s.claim.state = .backoff) ∧
    (s.claim.commitTime.isSome ↔ s.claim.state = .committed) ∧
    (s.claim.overdue = true → s.claim.state = .committed) ∧ (s.claim.conflict = true → s.claim.state = .committed)

/-- The stores stand within their sizes (R21, R26, R43, R85, R113, R145, R181). -/
def sizesKept (s : State) : Prop :=
  s.trial.length ≤ 8 ∧ s.stowage.map.length ≤ 48 ∧ s.link.queue.length ≤ 32 ∧ s.view.entries.length ≤ 14 ∧
    s.sensor.discarded ≤ 65535 ∧ s.solver.passNumber ≤ 4294967295

/-- Both banks of a journal hold at most 32 records (R181). -/
def banksKept (j : Journal) : Prop := j.bankA.length ≤ 32 ∧ j.bankB.length ≤ 32

/-- The journal, and every copy of it in retained memory, holds at most 32 records in a bank (R181). -/
def journalKept (s : State) : Prop :=
  banksKept s.journal ∧ banksKept s.memory.contents.journal ∧
    ∀ w, s.memory.writing = some w → banksKept w.contents.journal

/-- The peer view: entries in rising order of station number, each in 1..15 and none the own number; none before
the station has left START (R85). -/
def viewKept (s : State) : Prop :=
  (s.view.entries.map (·.station)).Pairwise (· < ·) ∧
    (∀ e ∈ s.view.entries, 1 ≤ e.station ∧ e.station ≤ 15 ∧ s.ownNumber ≠ some e.station) ∧
    (s.station.state = .start → s.view.entries = [])

/-- What the station derives and holds is what its rules give from the state: the permits, the alarm condition and
the clean-view condition (R97, R154 to R159, R180). -/
def derivedKept (s : State) : Prop :=
  s.crane.permits = permitsOf s ∧ s.report.alarm = alarmHolds s.report ∧ s.view.clean = cleanNow s

/-- The two pump outputs are never ACTIVE together (R173). -/
def pumpsApart (s : State) : Prop := ¬ (s.pump.ps = .active ∧ s.pump.sp = .active)

/-- A published record carries the pass number of the publish (R59, R82). -/
def carriesPass (n : Nat) (f : Flavour) (r : CondRecord) : Prop :=
  r.flavour = f ∧ match r.body with
    | none => n = 0
    | some b => b.passNumber = n

/-- The three records are of one pass, and what consumers hold of it is alike (R59, R84, R154, R180). -/
def publishKept (s : State) : Prop :=
  carriesPass s.solver.passNumber .actual s.solver.actual ∧ carriesPass s.solver.passNumber .lift s.solver.lift ∧
    carriesPass s.solver.passNumber .final s.solver.final ∧ s.solver.prevActual = s.solver.actual.verdict ∧
    s.solver.prevLift = s.solver.lift.verdict ∧ s.report.actual = s.solver.actual.verdict ∧
    s.report.lift = s.solver.lift.verdict ∧ (s.role = .crane → s.crane.verdict = s.solver.lift.verdict) ∧
    (s.station.state = .start → s.solver.pass = none ∧ s.solver.lift.body = none ∧ s.crane.verdict = .notYet)

end Sys2Proof.Machine
end

