-- ==== Sys2Proof/Certificates/Slice0/Obligations.lean ====
section
/-! DEFINITION. The statements for the provers, each with the rule of spec/ it formalises or rests on. A request is
stated from `asTaken dt s`, the station as its owner finds it; `onlyChanges` is the frame. -/

open Sys2Proof Sys2Proof.Machine

/-! ### Steps, completion and reset -/

/-- One step runs the command at the front of the queue on the station with the queue's rest.
The queue is the model's form of a block (log 2). -/
def Obligations.StepRunsFrontCommand : Prop :=
  (∀ (c : Instr) (rest : List Instr) (s : State), s.pending = c :: rest → step s = exec c (s.setPending rest)) ∧
    (∀ (c : Instr) (s : State), step (s.setPending (c :: s.pending)) = exec c s)

/-- Every command completes in every state: the queue is kept, the timer moves on by what the command carries unless a
reset takes place, and what has been answered and sent stays (log 1, log 14). -/
def Obligations.EveryCommandCompletes : Prop :=
  ∀ (c : Instr) (s : State), ∃ t, exec c s = .next t ∧ t.pending = s.pending ∧
    s.panel.out <+: t.panel.out ∧ s.link.out <+: t.link.out ∧
    (t.station.timer = s.station.timer + elapsedBy c ∨
      (t.station.state = .start ∧ t.station.timer = 0 ∧ t.power.resetPending = none))

/-- The invariants of the model hold at its reset state.
What the reset state holds beyond the spec's reset values is log 11 and log 12. -/
def Obligations.InvariantsHoldAtReset : Prop :=
  portKept State.reset ∧ stowageKept State.reset ∧ movesKept State.reset ∧ claimKept State.reset ∧
    sizesKept State.reset ∧ journalKept State.reset ∧ viewKept State.reset ∧ derivedKept State.reset ∧
    pumpsApart State.reset ∧ publishKept State.reset

/-! ### Invariants that every step keeps -/

/-- The panel port has one request in hand: the response that waits for a write is its response, and a LIFT REQUEST that
waits for its probe is it (R187). -/
def Obligations.StepKeepsOneRequestInHand : Prop :=
  ∀ s t : State, portKept s → step s = .next t → portKept t

/-- The item list keeps its size, its numbers and the fields its states give, in working and in retained memory, the stored
check stays that of the retained contents, and a MOVE entry that is not VOID names a PLANNED_IN record (R21, R22, R48, R194).
The layout the check is computed over is log 8. -/
def Obligations.StepKeepsItemList : Prop :=
  ∀ s t : State, stowageKept s → movesKept s → step s = .next t → stowageKept t ∧ movesKept t

/-- The claim unit keeps its record, times, counts and marks as its state gives, and a claim only in RUN (R119, R125). -/
def Obligations.StepKeepsClaimUnit : Prop := ∀ s t : State, claimKept s → step s = .next t → claimKept t

/-- The trial stack, the classed-item map, the transmit queue, the peer view, the discarded-record count, the pass number and
the journal banks stay within their sizes (R26, R43, R59, R85, R113, R145, R181). -/
def Obligations.StepKeepsSizes : Prop :=
  ∀ s t : State, sizesKept s → journalKept s → step s = .next t → sizesKept t ∧ journalKept t

/-- The peer view keeps one entry per station number, in order, and none of its own (R85). -/
def Obligations.StepKeepsPeerView : Prop := ∀ s t : State, viewKept s → step s = .next t → viewKept t

/-- The permits, the alarm condition and the clean-view condition held are those the state gives (R97, R154, R180). -/
def Obligations.StepKeepsDerivedConditions : Prop := ∀ s t : State, derivedKept s → step s = .next t → derivedKept t

/-- The published records are of one pass, and what the consumers hold of it is alike (R59, R84, R154, R180). -/
def Obligations.StepKeepsOnePublish : Prop := ∀ s t : State, publishKept s → step s = .next t → publishKept t

/-- The pump outputs are never ACTIVE together, and one becomes ACTIVE only with the other INACTIVE and the dead interval
past its off time (R173). -/
def Obligations.PumpsKeptApart : Prop :=
  ∀ s t : State, pumpsApart s → step s = .next t → pumpsApart t ∧
    (s.pump.ps ≠ .active → t.pump.ps = .active →
      t.pump.sp = .inactive ∧ t.pump.offSp + deadInterval s ≤ t.station.timer) ∧
    (s.pump.sp ≠ .active → t.pump.sp = .active →
      t.pump.ps = .inactive ∧ t.pump.offPs + deadInterval s ≤ t.station.timer)

/-! ### Resets -/

/-- POWER_ON, SUPPLY_RECOVER, RESTART_LINE_RELEASE and RESTART_RESPONSE_SENT complete a reset: every block takes its reset
values and the cause is recorded; the list and the journal stand where the retained check passes, else they are empty (R38,
R193, R194).
The layout the check is computed over is log 8; that the automatic mode is OFF until the store is LOADED is log 13; that the
pins, the draw count and the output logs are kept is the model's (log 12, log 14), and how pending causes combine is log 15. -/
def Obligations.ResetLeavesResetValues : Prop :=
  (∀ (dt : Nat) (s : State), s.power.line = false →
    ∃ t, exec (.powerOn dt) s = .next t ∧ afterReset .powerOn s t) ∧
  (∀ (dt : Nat) (c : ResetCause) (s : State), s.power.off = false → s.power.line = false →
    s.power.resetPending = some c → (c = .panelRestart → s.power.responseSent = true) →
    ∃ t, exec (.supplyRecover dt) s = .next t ∧ afterReset c s t) ∧
  (∀ (dt : Nat) (c : ResetCause) (s : State), s.power.low = false → s.power.resetPending = some c →
    (c = .panelRestart → s.power.responseSent = true) →
    ∃ t, exec (.restartLineRelease dt) s = .next t ∧ afterReset c s t) ∧
  (∀ (dt : Nat) (s : State), s.power.low = false → s.power.line = false →
    s.power.resetPending = some .panelRestart →
    ∃ t, exec (.restartResponseSent dt) s = .next t ∧ afterReset .panelRestart s t) ∧
  (∀ i : Item, resetItem i =
    if i.state = .slung then { i with state := .unresolved, direction := none } else i)

/-- BROWN_OUT, RESTART_LINE and SUPPLY_OFF make a reset pending, the first cause standing but for a supply that falls off;
the frame in transmission ends with a break and the safe state applies at once. RESTART is answered ACCEPTED and makes its
reset pending; a body beside it is refused with RANGE (R186). While a brown-out or the restart line holds a reset pending, no
frame, sensor record, panel request or line input is taken and nothing is transmitted: only time passes (R163, R193).
How causes combine beyond R193's sentences is log 15, what counts as a body that does not fit log 7, and that the timer and the
station's internal steps go on meanwhile log 21. -/
def Obligations.DetectionHoldsTheStation : Prop :=
  (∀ (dt : Nat) (s u : State), u = elapse dt s → ∃ t, exec (.brownOut dt) s = .next t ∧
    t.power = { u.power with
      low := true, resetPending := some (u.power.resetPending.getD .brownOut), responseSent := true } ∧
    t.link = { u.link with tx := none } ∧ safeState t = true ∧ onlyChanges [.power, .link] u t) ∧
  (∀ (dt : Nat) (s u : State), u = elapse dt s → ∃ t, exec (.restartLine dt) s = .next t ∧
    t.power = { u.power with
      line := true, resetPending := some (u.power.resetPending.getD .restartLine), responseSent := true } ∧
    t.link = { u.link with tx := none } ∧ safeState t = true ∧ onlyChanges [.power, .link] u t) ∧
  (∀ (dt : Nat) (s u : State), u = elapse dt s → ∃ t, exec (.supplyOff dt) s = .next t ∧
    t.power = { u.power with low := true, off := true, resetPending := some .powerOn, responseSent := true } ∧
    t.link = { u.link with tx := none } ∧ safeState t = true ∧ onlyChanges [.power, .link] u t) ∧
  (∀ (dt : Nat) (q : Byte) (s : State), admits 26 s →
    ∃ u t, u = asTaken dt s ∧ exec (.restart dt ⟨q, true⟩) s = .next t ∧
      t.power = { u.power with resetPending := some (u.power.resetPending.getD .panelRestart) } ∧
      t.panel = ⟨none, u.panel.out ++ [⟨26, q, .accepted, .empty⟩]⟩ ∧ onlyChanges [.power, .panel] u t) ∧
  (∀ (dt : Nat) (q : Byte) (s : State), admits 26 s → ∃ t, exec (.restart dt ⟨q, false⟩) s = .next t ∧
    responded ⟨26, q, .range, .empty⟩ (asTaken dt s) t) ∧
  (∀ (c : Instr) (s : State), s.power.low = true ∨ s.power.line = true → crossesPort c = true →
    exec c s = .next (elapse (elapsedBy c) s) ∧ safeState s = true)

/-! ### START, LISTEN and QUIET -/

/-- MEMORY_READ: the parts of the commissioning memory are taken in R3's order, the read in hand starting afresh at each.
MEMORY_READ_TIMEOUT: a read unanswered for 50 ms is repeated, and after the third attempt the memory is unreadable (R3, R19).
The five parts and what becomes of a part not awaited are the model's (log 4, log 5), and so is the detail 0 of an unreadable
memory (log 17). -/
def Obligations.CommissioningMemoryIsRead : Prop :=
  (∀ (dt a r : Nat) (s : State), s.station.state = .start →
      (∀ h, s.table = readSoFar none none none none a r →
        exec (.memoryRead dt (.header h)) s =
          .next ((elapse dt s).setTable (readSoFar (some h) none none none 0 (s.station.timer + dt)))) ∧
      (∀ h i bytes, s.table = readSoFar (some h) none none none a r → imageFitsHeader h i = true →
        exec (.memoryRead dt (.image i bytes)) s = .next ((elapse dt s).setTable
          (readSoFar (some h) (some (i, bytes)) none none 0 (s.station.timer + dt)))) ∧
      (∀ h i v, s.table = readSoFar (some h) (some i) none none a r →
        exec (.memoryRead dt (.tableCheck v)) s = .next ((elapse dt s).setTable
          (readSoFar (some h) (some i) (some v) none 0 (s.station.timer + dt)))) ∧
      (∀ h i v c bytes, s.table = readSoFar (some h) (some i) (some v) none a r → sectionFits c = true →
        exec (.memoryRead dt (.stationSection c bytes)) s = .next ((elapse dt s).setTable
          (readSoFar (some h) (some i) (some v) (some (c, bytes)) 0 (s.station.timer + dt))))) ∧
  (∀ (dt : Nat) (s : State), s.station.state = .start → s.table.contents = .empty → s.view.clean = false →
      (s.station.timer + dt < s.table.readAt + 50 → exec (.memoryReadTimeout dt) s = .next (elapse dt s)) ∧
      (s.table.readAt + 50 ≤ s.station.timer + dt → s.table.attempts < 2 →
        exec (.memoryReadTimeout dt) s = .next ((elapse dt s).setTable { s.table with
          attempts := s.table.attempts + 1, readAt := s.station.timer + dt })) ∧
      (s.table.readAt + 50 ≤ s.station.timer + dt → 2 ≤ s.table.attempts →
        ∃ t, exec (.memoryReadTimeout dt) s = .next t ∧
          t.station = { s.station with
            state := .fault, timer := s.station.timer + dt, since := s.station.timer + dt } ∧
          t.table = { s.table with
            contents := .invalid, fault := ⟨.memoryUnreadable, 0⟩, identity := none, number := none } ∧
          t.crane = { s.crane with permits := .inactive } ∧ onlyChanges [.station, .table, .crane] s t))

/-- MEMORY_READ of the last part: a memory that passes every check of R19 takes the station to LISTEN with the store LOADED
and the work of R191 begun.
The automatic mode before this step is log 13, and the raw levels the lines start from are log 12. -/
def Obligations.ValidMemoryEntersListen : Prop :=
  ∀ (dt a r d : Nat) (o : List (List Byte)) (h : Header) (i : TableImage) (bytes : List Byte) (v w : Word32)
    (c : StationSection) (cbytes : List Byte) (s : State),
    s.station.state = .start → s.table = readSoFar (some h) (some (i, bytes)) (some v) (some (c, cbytes)) a r →
    s.link = Link.cleared d o → s.view = View.cleared →
    validate ⟨h, i, crc32 bytes, v, c, crc32 cbytes, w⟩ = none →
    ∃ t, exec (.memoryRead dt (.sectionCheck w)) s = .next t ∧
      t.station = { s.station with
        state := .listen, timer := s.station.timer + dt, since := s.station.timer + dt
        listenAt := some (s.station.timer + dt) } ∧
      t.table = { readSoFar (some h) (some (i, bytes)) (some v) (some (c, cbytes)) 0 (s.station.timer + dt) with
        sectionCheck := some w, contents := .loaded, identity := some (crc32 bytes)
        number := some c.number.toNat } ∧
      t.lines = { s.lines with
        applied := true, inputs := s.lines.inputs.map (fun l => ⟨l.raw, s.station.timer + dt, false⟩) } ∧
      t.link = { Link.cleared d o with
        queue := [.rollcall true], placeholder := true, rotationAt := some (s.station.timer + dt) } ∧
      t.report.latched = (if s.station.retainedPassed then s.report.latched
        else insertKind .retainedLost s.report.latched) ∧
      t.report.mask = s.report.mask ∧ t.solver = { s.solver with dirty := true } ∧
      t.crane = { s.crane with permits := .inactive } ∧
      t.pump = { s.pump with auto := (c.pump.bind (·.autoDefault)).getD false } ∧
      t.view = { s.view with clean := cleanNow t } ∧
      onlyChanges [.station, .table, .lines, .link, .report, .solver, .crane, .pump, .view] s t

/-- MEMORY_READ of the last part, or of a memory that ends early or is absent: a memory that fails takes the station to
FAULT with the first failure on record and the store INVALID, its identity shown past the table check; nothing is queued (R14,
R18, R19, R190).
The detail 0 of an unreadable memory is log 17. -/
def Obligations.InvalidMemoryEntersFault : Prop :=
  (∀ (dt a r : Nat) (h : Header) (i : TableImage) (bytes : List Byte) (v w : Word32) (c : StationSection)
    (cbytes : List Byte) (f : FaultRecord) (s : State),
    s.station.state = .start → s.table = readSoFar (some h) (some (i, bytes)) (some v) (some (c, cbytes)) a r →
    s.view.clean = false → validate ⟨h, i, crc32 bytes, v, c, crc32 cbytes, w⟩ = some f →
    ∃ t, exec (.memoryRead dt (.sectionCheck w)) s = .next t ∧
      t.station = { s.station with
        state := .fault, timer := s.station.timer + dt, since := s.station.timer + dt } ∧
      t.table = { readSoFar (some h) (some (i, bytes)) (some v) (some (c, cbytes)) 0 (s.station.timer + dt) with
        sectionCheck := some w, contents := .invalid, fault := f
        identity := if f.kind = .format ∨ f.kind = .tableCheck then none else some (crc32 bytes)
        number := if (formatFault h).isNone ∧ crc32 cbytes = w ∧ within 1 c.number 15 = true then
          some c.number.toNat else none } ∧
      t.lines = (if linesPass ⟨h, i, crc32 bytes, v, c, crc32 cbytes, w⟩ = true then
        { s.lines with
          applied := true, inputs := s.lines.inputs.map (fun l => ⟨l.raw, s.station.timer + dt, false⟩) }
        else s.lines) ∧
      t.crane = { s.crane with permits := .inactive } ∧ safeState t = true ∧
      onlyChanges [.station, .table, .lines, .crane] s t) ∧
  (∀ (dt : Nat) (part : MemoryPart) (s : State), part = .ended ∨ part = .absent → s.station.state = .start →
    s.table.contents = .empty → s.view.clean = false →
    ∃ t, exec (.memoryRead dt part) s = .next t ∧
      t.station = { s.station with
        state := .fault, timer := s.station.timer + dt, since := s.station.timer + dt } ∧
      t.table = { s.table with
        contents := .invalid, fault := ⟨.memoryUnreadable, 0⟩, identity := none, number := none } ∧
      t.crane = { s.crane with permits := .inactive } ∧ onlyChanges [.station, .table, .crane] s t)

/-- Validation records the first failing check in R19's order with the detail its rule gives, and none when every check passes;
each check fails on the values its rule gives (R3 to R15, R18, R19).
That a distance of R10 outside its range fails nothing is log 48, and that a failing line comes before a missing one log 49. -/
def Obligations.FirstFailureDecidesFault : Prop :=
  (∀ r : ReadResult,
      let t := r.image
      let c := r.stationSection
      let role := c.role.getD .desk
      let checks : List (FaultKind × Option Nat) :=
        [(.format, formatFault r.header), (.tableCheck, if r.imageCrc = r.tableCheck then none else some 0),
          (.sectionCheck, if r.sectionCrc = r.sectionCheck then none else some 0),
          (.particulars, particularsFault t.particulars), (.rows, rowsFault t), (.lightship, lightshipFault t),
          (.sections, sectionsFault t), (.compartments, compartmentsFault t),
          (.segregationTable, segregationFault t), (.stationNumber, stationNumberFault c),
          (.stationFields, stationFieldsFault t c), (.lines, linesFault role c.lines),
          (.roleSection, roleFault t c role)]
      (validate r = none ↔ ∀ q ∈ checks, q.2 = none) ∧
      ∀ as k d bs, checks = as ++ (k, some d) :: bs → (∀ q ∈ as, q.2 = none) → validate r = some ⟨k, d⟩) ∧
  (∀ h : Header,
      (h.format ≠ 4 → formatFault h = some 1) ∧
      (h.format = 4 → ¬ (2 ≤ h.rows ∧ h.rows ≤ 128) → formatFault h = some 2) ∧
      (h.format = 4 → 2 ≤ h.rows → h.rows ≤ 128 → 8 < h.sections → formatFault h = some 3) ∧
      (h.format = 4 → 2 ≤ h.rows → h.rows ≤ 128 → h.sections ≤ 8 →
        (¬ (1 ≤ h.compartments ∧ h.compartments ≤ 32) → formatFault h = some 4) ∧
        (1 ≤ h.compartments → h.compartments ≤ 32 → formatFault h = none))) ∧
  (∀ (p : Particulars) (d : Nat),
      let ranges : List (Int × Int × Int) :=
        [(1, p.lpp, 250000), (1, p.halfBreadth, 30000), (1, p.maxDraft, 30000), (0, p.minAftDraft, p.maxDraft - 1),
          (-20000, p.trimMin, 20000), (p.trimMin, p.trimMax, 20000), (1, p.gmMin, 10000), (1, p.staticHeel, 999),
          (1, p.liftHeel, 999), (0, p.degradedGm, 10000), (0, p.degradedHeel, min p.staticHeel p.liftHeel - 1),
          (0, p.gmBand, 10000), (0, p.staticHeelBand, p.staticHeel), (0, p.liftHeelBand, p.liftHeel),
          (0, p.trimBand, 20000), (0, p.maxDraftBand, p.maxDraft), (0, p.minAftBand, 10000)]
      let inside := fun (q : Int × Int × Int) => q.1 ≤ q.2.1 ∧ q.2.1 ≤ q.2.2
      particularsFault p = some d ↔ ∃ as q bs, ranges = as ++ q :: bs ∧ d = as.length + 1 ∧ ¬ inside q ∧
        ∀ o ∈ as, inside o) ∧
  (∀ (t : TableImage) (d : Nat),
      let code := segregationCode t.segregation
      let rowOk := fun i => ∀ j, 1 ≤ j → j ≤ 9 → 0 ≤ code i j ∧ code i j ≤ 4 ∧ code i j = code j i
      segregationFault t = some d ↔ 1 ≤ d ∧ d ≤ 9 ∧ ¬ rowOk d ∧ ∀ i, 1 ≤ i → i < d → rowOk i) ∧
  (∀ c : StationSection, stationNumberFault c = if 1 ≤ c.number ∧ c.number ≤ 15 then none else some 0) ∧
  (∀ t : TableImage, failsAt (rowsChecks t) (rowsFault t) ∧
    (∀ r, t.rows.getLast? = some r → failsAt (lightshipChecks t r.d) (lightshipFault t)) ∧
    failsAt (sectionsChecks t) (sectionsFault t) ∧ failsAt (compartmentsChecks t) (compartmentsFault t)) ∧
  (∀ (t : TableImage) (c : StationSection) (role : Role), failsAt (fieldsChecks t c) (stationFieldsFault t c) ∧
    failsAt (linesChecks role c.lines) (linesFault role c.lines) ∧ failsAt (roleChecks t c role) (roleFault t c role))

/-- LISTEN_TIMEOUT takes LISTEN to RUN after 4,000 ms, and QUIET_FILTER_EXPIRY takes RUN to QUIET when the quiet filter time has
passed since its start; neither acts before its time, and a filter set to OFF never runs out. An activity event restarts the
filter in RUN and takes a station out of QUIET with WAKE latched and a SHARE caused (R11, R119 to R121, R191).
What stood before an output became ACTIVE is forgotten at an activity event (log 45). -/
def Obligations.ListenQuietAndWake : Prop :=
  ((∀ (dt a : Nat) (s u : State), u = elapse dt s → u.station.state = .listen → u.station.listenAt = some a →
      (u.now < a + 4000 → exec (.listenTimeout dt) s = .next u) ∧
      (a + 4000 ≤ u.now → ∃ t, exec (.listenTimeout dt) s = .next t ∧
        t.station = { u.station with
          state := .run, since := u.now, quietStart := if quietConditions u then some u.now else none } ∧
        t.crane = { u.crane with permits := permitsOf t } ∧ onlyChanges [.station, .crane] u t)) ∧
    (∀ (dt q w : Nat) (s u : State), u = elapse dt s → u.station.state = .run → u.station.quietStart = some q →
      quietTime u = some w →
      (u.now < q + w → exec (.quietFilterExpiry dt) s = .next u) ∧
      (q + w ≤ u.now → ∃ t, exec (.quietFilterExpiry dt) s = .next t ∧
        t.station = { u.station with state := .quiet, since := u.now, quietStart := none } ∧
        t.link = { u.link with placeholder := true, wakeCause := false } ∧
        t.crane = { u.crane with permits := permitsOf t } ∧
        onlyChanges [.station, .link, .crane] u t)) ∧
    (∀ (dt : Nat) (s : State), quietTime s = none → exec (.quietFilterExpiry dt) s = .next (elapse dt s)) ∧
    (∀ s : State, quietTime s = match s.sec.quiet with
      | some .s4 => some 4000
      | some .s60 => some 60000
      | some .s300 => some 300000
      | _ => none)) ∧
  (∀ u : State,
      (quietConditions u = true ↔ u.claim.state = .none ∧
        (u.role = .crane → ∀ h, u.crane.held = some h → h.load < u.craneData.pick) ∧
        (u.role = .tank → u.pump.ps ≠ .active ∧ u.pump.sp ≠ .active)) ∧
      (u.station.state = .run → activity u = u.setStation { u.station with
        quietStart := if quietConditions u then some u.now else none, quietBefore := none }) ∧
      (u.station.state = .quiet →
        (activity u).station = { u.station with
          state := .run, since := u.now, quietStart := if quietConditions u then some u.now else none
          quietBefore := none } ∧
        (activity u).link = { u.link with placeholder := true, wakeCause := !u.link.placeholder } ∧
        (activity u).report.latched = insertKind .wake u.report.latched ∧
        onlyChanges [.station, .link, .report] u (activity u)) ∧
      (u.station.state ≠ .run → u.station.state ≠ .quiet → activity u = u))

/-! ### The panel port -/

/-- A request while another is in progress is answered BUSY, and one its station state does not admit is answered STATE; either
has acted as an activity event, and neither reaches a block (R119, R187, R188).
That a request so answered is an activity event is read from R119 (log 40). -/
def Obligations.BusyAndStateAnswers : Prop :=
  ∀ (c : Instr) (code : Nat) (q : Byte) (s : State), requestOf c = some (code, q) → takesInputs s = true →
    (s.panel.inProgress ≠ none → exec c s = .next ((asTaken (elapsedBy c) s).setPanel
      ⟨s.panel.inProgress, s.panel.out ++ [⟨code, q, .busy, .empty⟩]⟩)) ∧
    (s.panel.inProgress = none → ¬ stateAdmits s.station.state code →
      exec c s = .next ((asTaken (elapsedBy c) s).setPanel
        ⟨none, s.panel.out ++ [⟨code, q, .state, .empty⟩]⟩))

/-- LIST_ITEMS, READ_CONDITION, READ_VIEW, READ_STATUS and READ_JOURNAL answer with what stands and change nothing else; an
index or a flavour out of range and a body that does not fit are refused with RANGE, and LIST_ITEMS at a TANK station with ROLE
(R25, R42, R82, R103, R185, R186, R188, R189).
READ_VIEW shows every timeout that has passed (R103), the port's and the heel filter's among them (log 32); an absent argument
stands for a body that does not fit (log 7), and READ_STATUS finds a write of the list complete (log 9). -/
def Obligations.ReadRequestsChangeNothing : Prop :=
  ∀ (dt : Nat) (q : Byte) (s u : State), u = asTaken dt s →
    (∀ n, admits 8 s → u.role ≠ .tank → 1 ≤ n → n ≤ 64 → ∃ t, exec (.listItems dt q (some n)) s = .next t ∧
      responded ⟨8, q, .accepted, .items u.stowage.items.length ((u.stowage.items.drop (n - 1)).take 8)⟩ u t) ∧
    (∀ n, admits 8 s → u.role ≠ .tank → n = 0 ∨ 64 < n → ∃ t, exec (.listItems dt q (some n)) s = .next t ∧
      responded ⟨8, q, .range, .empty⟩ u t) ∧
    (∀ n, admits 8 s → u.role = .tank → ∃ t, exec (.listItems dt q n) s = .next t ∧
      responded ⟨8, q, .role, .empty⟩ u t) ∧
    (admits 8 s → u.role ≠ .tank → ∃ t, exec (.listItems dt q none) s = .next t ∧
      responded ⟨8, q, .range, .empty⟩ u t) ∧
    (∀ f, admits 17 s → ∃ t, exec (.readCondition dt q (some f)) s = .next t ∧
      responded ⟨17, q, .accepted, .condition (match f with
        | .actual => u.solver.actual
        | .lift => u.solver.lift
        | .final => u.solver.final
        | .probe => u.solver.probe)⟩ u t) ∧
    (admits 17 s → ∃ t, exec (.readCondition dt q none) s = .next t ∧ responded ⟨17, q, .range, .empty⟩ u t) ∧
    (admits 18 s →
      ∃ r t, exec (.readView dt ⟨q, true⟩) s = .next t ∧ responded ⟨18, q, .accepted, .view r⟩ u t ∧
        r.timer = u.now ∧ r.count = u.view.entries.length ∧ r.failureAt = u.view.failureAt ∧
        (r.clean = true ↔ u.station.state ≠ .fault ∧ ∀ b ∈ r.parts, b = true) ∧
        r.parts = partsShown u ∧
        r.entries = u.view.entries.map (fun e =>
          { station := e.station, state := peerStateShown u e, lastHeard := e.lastHeard, roll := e.roll, identity := e.identity
            listen := e.share.map (·.listen), quiet := e.share.any (·.quiet), clean := e.share.map (·.clean)
            baseMass := e.share.map (·.base.mass), hook := e.share.bind (·.hook)
            plannedMass := e.share.map (·.planned.mass)
            claim := e.claim.map (fun c => ⟨c.number, c.cls, c.phase, c.mass⟩) })) ∧
    (∀ v, v = asUsed dt s → admits 19 s → ∃ t, exec (.readStatus dt ⟨q, true⟩) s = .next t ∧
      responded ⟨19, q, .accepted, .status (statusRecord v)⟩ v t) ∧
    (admits 18 s → ∃ t, exec (.readView dt ⟨q, false⟩) s = .next t ∧ responded ⟨18, q, .range, .empty⟩ u t) ∧
    (admits 19 s → ∃ t, exec (.readStatus dt ⟨q, false⟩) s = .next t ∧
      responded ⟨19, q, .range, .empty⟩ (asUsed dt s) t) ∧
    (∀ n, admits 22 s → 1 ≤ n → n ≤ 32 → ∃ t, exec (.readJournal dt q (some n)) s = .next t ∧
      responded ⟨22, q, .accepted, .journal (!u.journal.writeA) (readBank u.journal).length
        (writeBank u.journal).length (((readBank u.journal).drop (n - 1)).take 8)⟩ u t) ∧
    (∀ n, admits 22 s → n = 0 ∨ 32 < n → ∃ t, exec (.readJournal dt q (some n)) s = .next t ∧
      responded ⟨22, q, .range, .empty⟩ u t) ∧
    (admits 22 s → ∃ t, exec (.readJournal dt q none) s = .next t ∧ responded ⟨22, q, .range, .empty⟩ u t)

/-- The parts of the status record: the station part and the line block always; in START nothing else; in FAULT the view and
the event latch beside them; in the other states the parts of the blocks that act at the role, each with the fields its
chapter lists. In HALT the times and the filtered line states are those at the entry (R104, R144, R164, R176, R185, R189).
That the lines are filtered on in HALT beneath their frozen readout is log 19, the journal part in HALT log 36, the parts a role
lacks log 20, the retained check that is never absent log 41, and a time left of 0 past its expiry log 52. -/
def Obligations.StatusRecordParts : Prop :=
  ∀ u : State,
    let read := if u.station.state = .halt then u.station.frozenAt.getD u.station.timer else u.station.timer
    let inputs := if u.station.state = .halt then u.lines.frozen.getD u.lines.inputs else u.lines.inputs
    let verdictOf := fun (r : CondRecord) => match r.body with
      | none => Verdict.notYet
      | some b => b.verdict
    ((statusRecord u).station.state = u.station.state ∧ (statusRecord u).station.timer = read ∧
      (statusRecord u).station.timeIn = read - u.station.since ∧
      (statusRecord u).station.cause = u.station.cause ∧
      (statusRecord u).station.retainedPassed = some u.station.retainedPassed ∧
      (statusRecord u).station.fault = u.table.fault ∧ (statusRecord u).station.identity = u.table.identity ∧
      (statusRecord u).station.number = u.table.number ∧ (statusRecord u).station.passNumber = u.solver.passNumber ∧
      (statusRecord u).station.actual = verdictOf u.solver.actual ∧
      (statusRecord u).station.lift = verdictOf u.solver.lift ∧
      (statusRecord u).station.final = verdictOf u.solver.final ∧
      (statusRecord u).station.items = u.stowage.items.length ∧ (statusRecord u).station.trials = u.trial.length ∧
      (statusRecord u).station.voids = u.trial.countP (fun e => match e with
        | .move _ _ _ voided => voided
        | .add .. => false) ∧
      (statusRecord u).station.mapCount = u.stowage.map.length ∧
      (statusRecord u).station.mapIncomplete = u.stowage.mapIncomplete) ∧
    (∀ c r, u.table.contents = .loaded → u.table.stationSection = some c → c.role = some r →
      (statusRecord u).station.role = some r ∧
      (statusRecord u).station.period = some (if c.period = 0 then 500 else c.period.toNat) ∧
      (statusRecord u).station.hold = some (if c.hold = 0 then 400 else c.hold.toNat)) ∧
    (∃ l, (statusRecord u).lines = some l ∧ l.safeState = safeState u ∧
      ∀ n i, 1 ≤ n → n ≤ 12 → inputs[n - 1]? = some i → l.lines[n - 1]? = some
        ⟨u.lineEntry n, if lineSampled u n then some i.filtered else none, lineDriven u n⟩) ∧
    (u.table.contents ≠ .loaded → (statusRecord u).station.role = none ∧
      (statusRecord u).station.period = none ∧ (statusRecord u).station.hold = none) ∧
    (u.station.state = .start → (statusRecord u).view = none ∧ (statusRecord u).claim = none ∧
      (statusRecord u).crane = none ∧ (statusRecord u).pump = none ∧ (statusRecord u).report = none ∧
      (statusRecord u).journal = none) ∧
    (u.station.state = .fault → (statusRecord u).view.isSome ∧
      (statusRecord u).report = some ⟨u.report.latched, u.report.mask, u.report.alarm⟩ ∧
      (statusRecord u).claim = none ∧ (statusRecord u).crane = none ∧ (statusRecord u).pump = none ∧
      (statusRecord u).journal = none) ∧
    (u.station.state ≠ .start → u.station.state ≠ .fault → (statusRecord u).view.isSome ∧
      (statusRecord u).report = some ⟨u.report.latched, u.report.mask, u.report.alarm⟩ ∧
      (statusRecord u).journal =
        some ⟨u.journal.writeA, u.journal.bankA.length, u.journal.bankB.length, u.sec.filter⟩ ∧
      ((statusRecord u).claim.isSome ↔ u.role = .crane) ∧
      ((statusRecord u).crane.isSome ↔ u.role = .crane) ∧ ((statusRecord u).pump.isSome ↔ u.role = .tank)) ∧
    (∀ v, (statusRecord u).view = some v →
      let es := u.view.entries
      v.count = es.length ∧ v.fresh = es.countP (·.state = .fresh) ∧ v.stale = es.countP (·.state = .stale) ∧
        v.lost = es.countP (·.state = .lost) ∧ v.matching = es.countP (·.identity = .matching) ∧
        v.mismatch = es.countP (·.identity = .mismatch) ∧ v.unknown = es.countP (·.identity = .unknown) ∧
        v.agreement = (if u.inclinometer then some u.view.agreement else none) ∧
        (v.clean = true ↔ (u.station.state = .listen ∨ u.station.state = .run ∨ u.station.state = .quiet) ∧
          ∀ b ∈ v.parts, b = true) ∧
        v.parts =
          [es.all (·.state = .fresh), es.all (·.identity = .matching), !u.view.windowOpen,
            if u.station.state = .fault ∨ (u.station.state = .halt ∧ u.table.contents ≠ .loaded) then false
              else decide (u.role = .desk ∨ u.sensor.port = .fresh),
            !u.inclinometer || u.view.agreement]) ∧
    (∀ c, (statusRecord u).claim = some c →
      let k := u.claim
      c.state = k.state ∧ c.withdrawals = k.withdrawals ∧ c.overdue = k.overdue ∧ c.conflict = k.conflict ∧
        c.nextNumber = k.nextNumber ∧ (k.state = .none → c.claim = none) ∧
        (k.state ≠ .none → c.claim = recordMarked u) ∧
        c.holdLeft = (if k.state = .announced then k.holdExpiry.map (· - read) else none) ∧
        c.backoffLeft = (if k.state = .backoff then k.backoffExpiry.map (· - read) else none) ∧
        c.sinceCommit = (if k.state = .committed then k.commitTime.map (read - ·) else none)) ∧
    (∀ c, (statusRecord u).crane = some c →
      let d := u.craneData
      c = { port := u.sensor.port, sinceRecord := u.sensor.lastRecord.map (read - ·), held := u.crane.held
            heel := u.crane.heel
            position := u.crane.held.map (fun h =>
              radiusPoint d.pedestalX d.pedestalY h.radius h.height h.slew)
            lastLoaded := u.crane.lastLoaded, carrying := u.crane.carrying, unclaimed := u.crane.unclaimed
            overload := u.crane.overload, verdict := u.crane.verdict, permits := u.crane.permits
            discarded := u.sensor.discarded }) ∧
    (∀ c, (statusRecord u).pump = some c →
      let p := u.pump
      let low := fun id => ∃ k l, tankLevel u id = some (k, l) ∧ l ≤ k.minLevel
      let high := fun id => ∃ k l, tankLevel u id = some (k, l) ∧ k.maxLevel ≤ l
      c.auto = p.auto ∧ c.suspended = p.suspended ∧ c.autoDemand = p.autoDemand ∧ c.manualDemand = p.manualDemand ∧
        c.effective = (if p.auto = true ∧ p.autoDemand ≠ .none then p.autoDemand else p.manualDemand) ∧
        c.ps = p.ps ∧ c.sp = p.sp ∧ c.offPs = p.offPs ∧ c.offSp = p.offSp ∧
        (p.ps = .waiting → c.waitLeft = some (p.offSp + deadInterval u - read)) ∧
        (p.ps ≠ .waiting → p.sp = .waiting → c.waitLeft = some (p.offPs + deadInterval u - read)) ∧
        (p.ps ≠ .waiting → p.sp ≠ .waiting → c.waitLeft = none) ∧
        (c.psLimit = true ↔ low u.pumpData.portTank ∨ high u.pumpData.stbdTank) ∧
        (c.spLimit = true ↔ low u.pumpData.stbdTank ∨ high u.pumpData.portTank) ∧
        c.port = u.sensor.port ∧ c.sinceRecord = u.sensor.lastRecord.map (read - ·) ∧
        c.discarded = u.sensor.discarded ∧
        (p.levels = none → c.tanks = u.ownTanks.map (fun _ => ⟨none, none⟩)) ∧
        (∀ ls, p.levels = some ls → c.tanks =
          (u.ownTanks.zip ls).zipWith (fun q k => ⟨some q.2, some k⟩) (tanksHeld u)))

/-- READ_EVENTS removes exactly the kinds it returns; SET_MASK replaces the whole mask, or refuses a code outside 1..22 with
RANGE; both evaluate the alarm condition. SWITCH_BANK empties the read bank and exchanges the roles, as one retained write;
RETAINED_WRITE_COMPLETE makes the contents and their check stand and forms the response that waited (R178 to R180, R184, R186,
R187, R194).
A body that does not fit is log 7, the layout the check is computed over log 8, and how a retained write stands until it is
complete log 9. -/
def Obligations.ReportRequestsAndWriteCompletion : Prop :=
  (∀ (dt : Nat) (q : Byte) (s u : State), u = asTaken dt s →
    (admits 20 s → ∃ t, exec (.readEvents dt ⟨q, true⟩) s = .next t ∧
      t.panel = ⟨none, u.panel.out ++ [⟨20, q, .accepted, .events u.report.latched u.report.mask⟩]⟩ ∧
      t.report = { u.report with
        latched := [], alarm := decide (u.report.actual = .red) || decide (u.report.lift = .red) } ∧
      onlyChanges [.panel, .report] u t) ∧
    (∀ cs, admits 21 s → (∀ c ∈ cs, 1 ≤ c ∧ c ≤ 22) → ∃ m t, exec (.setMask dt q (some cs)) s = .next t ∧
      (∀ k, k ∈ m ↔ ∃ c ∈ cs, kindOfCode c = some k) ∧
      t.report = { u.report with mask := m, alarm := alarmHolds { u.report with mask := m } } ∧
      t.panel = ⟨none, u.panel.out ++ [⟨21, q, .accepted, .empty⟩]⟩ ∧ onlyChanges [.panel, .report] u t) ∧
    (∀ cs, admits 21 s → (∃ c ∈ cs, c = 0 ∨ 22 < c) → ∃ t, exec (.setMask dt q (some cs)) s = .next t ∧
      responded ⟨21, q, .range, .empty⟩ u t) ∧
    (admits 21 s → ∃ t, exec (.setMask dt q none) s = .next t ∧ responded ⟨21, q, .range, .empty⟩ u t) ∧
    (admits 20 s → ∃ t, exec (.readEvents dt ⟨q, false⟩) s = .next t ∧ responded ⟨20, q, .range, .empty⟩ u t) ∧
    (admits 23 s → ∃ t, exec (.switchBank dt ⟨q, false⟩) s = .next t ∧ responded ⟨23, q, .range, .empty⟩ u t)) ∧
  (∀ (dt : Nat) (q : Byte) (s u : State), portKept s → admits 23 s → u = asTaken dt s →
    ∃ v t, exec (.switchBank dt ⟨q, true⟩) s = .next t ∧ v.journal.writeA = (!u.journal.writeA) ∧
      readBank v.journal = writeBank u.journal ∧ writeBank v.journal = [] ∧ onlyChanges [.journal] u v ∧
      written ⟨23, q, .accepted, .switched u.journal.writeA (writeBank u.journal).length⟩ v t) ∧
  (∀ (dt : Nat) (c : RetainedContents) (r : Response) (s : State), s.memory.writing = some ⟨c, some r⟩ →
    exec (.retainedWriteComplete dt) s =
      .next (((elapse dt s).setMemory ⟨c, crc32 (retainedBytes c), none⟩).setPanel
        ⟨none, s.panel.out ++ [r]⟩)) ∧
  (∀ (dt : Nat) (c : RetainedContents) (s : State), s.memory.writing = some ⟨c, none⟩ →
    exec (.retainedWriteComplete dt) s = .next ((elapse dt s).setMemory ⟨c, crc32 (retainedBytes c), none⟩))

/-! ### The item list -/

/-- ADD_ITEM, AMEND_ITEM, MARK_OUT, CANCEL_ITEM, STOW_DIRECT, DISCHARGE_DIRECT and RESOLVE_ITEM, refused: the first failing check in
R25's order gives the result, with the ranges and R23's placement checks spelled out, and nothing else changes (R23 to R25, R186).
That an absent body is one that does not fit is log 7, and that a position comes with its compartment log 28. -/
def Obligations.StowageRequestsRefusedInOrder : Prop :=
  (∀ (dt : Nat) (q : Byte) (s u : State), u = asTaken dt s →
      let refused := fun (c : Instr) r => ∀ code, requestOf c = some (code, q) → admits code s →
        ∃ t, exec c s = .next t ∧ responded ⟨code, q, r, .empty⟩ u t
      let numberIn := fun (n : Nat) => 1 ≤ n ∧ n ≤ 255
      let compIn := fun (c : Nat) => 1 ≤ c ∧ c ≤ u.img.compartments.length
      let fieldsIn := fun (a : ItemArgs) => a.label ≤ 65535 ∧ 1 ≤ a.mass ∧ a.mass ≤ 100000 ∧ pointInRange a.pos = true ∧
        compIn a.comp ∧ 100 ≤ a.length ∧ a.length ≤ 30000 ∧ 100 ≤ a.breadth ∧ a.breadth ≤ 30000 ∧
        ∀ c, a.cls = some c → 1 ≤ c ∧ c ≤ 9
      let placeIn := fun (p : Option Point) (c : Option Nat) => (p = none ∧ c = none) ∨
        ∃ v w, p = some v ∧ c = some w ∧ pointInRange v = true ∧ compIn w
      let choiceIn := fun (x : ResolveChoice) => ∀ p c, x = .stow p c →
        ∃ v w, p = some v ∧ c = some w ∧ pointInRange v = true ∧ compIn w
      let blocked := fun (c : Option Nat) => c.isSome = true ∧ u.stowage.mapIncomplete = true
      let add := fun a => Instr.addItem dt q a
      let amend := fun a => Instr.amendItem dt q a
      let stow := fun a => Instr.stowDirect dt q a
      let resolve := fun a => Instr.resolveItem dt q a
      let named := fun n => [Instr.markOut dt q n, .cancelItem dt q n, .dischargeDirect dt q n]
      (∀ a b w x n, u.role = .tank → ∀ c ∈ [add a, amend b, stow w, resolve x] ++ named n, refused c .role) ∧
      (u.role ≠ .tank →
        (∀ c ∈ [add none, amend none, stow none, resolve none] ++ named none, refused c .range) ∧
        (∀ a, ¬ fieldsIn a → refused (add (some a)) .range) ∧
        (∀ n a, ¬ (numberIn n ∧ fieldsIn a) → refused (amend (some ⟨n, a⟩)) .range) ∧
        (∀ n, ¬ numberIn n → ∀ c ∈ named (some n), refused c .range) ∧
        (∀ n p c, ¬ (numberIn n ∧ placeIn p c) → refused (stow (some ⟨n, p, c⟩)) .range) ∧
        (∀ n x, ¬ (numberIn n ∧ choiceIn x) → refused (resolve (some ⟨n, x⟩)) .range) ∧
        (∀ a, fieldsIn a →
          (64 ≤ u.stowage.items.length → refused (add (some a)) .listFull) ∧
          (u.stowage.items.length < 64 → blocked a.cls → refused (add (some a)) .mapFull) ∧
          (u.stowage.items.length < 64 → ¬ blocked a.cls →
            (∀ r, placementRefusal u a.pos a.comp a.mass a.length a.breadth = some r → refused (add (some a)) r) ∧
            (placementRefusal u a.pos a.comp a.mass a.length a.breadth = none →
              segregated u none a.cls a.pos a.comp = true → refused (add (some a)) .segregation))) ∧
        (∀ n a p c x, numberIn n → fieldsIn a → placeIn p c → choiceIn x → findItem n u.stowage.items = none →
          ∀ k ∈ [amend (some ⟨n, a⟩), stow (some ⟨n, p, c⟩), resolve (some ⟨n, x⟩)] ++ named (some n),
            refused k .unknownItem) ∧
        (∀ n i, numberIn n → findItem n u.stowage.items = some i →
          (i.state ≠ .stowed → refused (.markOut dt q (some n)) .itemState) ∧
          (i.state = .stowed → underClaim u n = true → refused (.markOut dt q (some n)) .claimActive) ∧
          (i.state ≠ .plannedIn → i.state ≠ .plannedOut → refused (.cancelItem dt q (some n)) .itemState) ∧
          (i.state = .plannedIn ∨ i.state = .plannedOut → underClaim u n = true →
            refused (.cancelItem dt q (some n)) .claimActive) ∧
          (i.state ≠ .plannedOut → refused (.dischargeDirect dt q (some n)) .itemState) ∧
          (i.state = .plannedOut → underClaim u n = true → refused (.dischargeDirect dt q (some n)) .claimActive) ∧
          (∀ x, choiceIn x → i.state ≠ .unresolved → refused (resolve (some ⟨n, x⟩)) .itemState) ∧
          (∀ p c, placeIn p c →
            (i.state ≠ .plannedIn → refused (stow (some ⟨n, p, c⟩)) .itemState) ∧
            (i.state = .plannedIn → underClaim u n = true → refused (stow (some ⟨n, p, c⟩)) .claimActive) ∧
            (∀ r, i.state = .plannedIn → underClaim u n = false →
              placementRefusal u (p.getD i.planned) (c.getD i.comp) i.mass i.length i.breadth = some r →
              refused (stow (some ⟨n, p, c⟩)) r)) ∧
          (∀ a, fieldsIn a →
            (i.state ≠ .plannedIn → refused (amend (some ⟨n, a⟩)) .itemState) ∧
            (i.state = .plannedIn → underClaim u n = true → refused (amend (some ⟨n, a⟩)) .claimActive) ∧
            (i.state = .plannedIn → underClaim u n = false → blocked a.cls →
              refused (amend (some ⟨n, a⟩)) .mapFull) ∧
            (i.state = .plannedIn → underClaim u n = false → ¬ blocked a.cls →
              (∀ r, placementRefusal u a.pos a.comp a.mass a.length a.breadth = some r →
                refused (amend (some ⟨n, a⟩)) r) ∧
              (placementRefusal u a.pos a.comp a.mass a.length a.breadth = none →
                segregated u (some n) a.cls a.pos a.comp = true →
                refused (amend (some ⟨n, a⟩)) .segregation)))))) ∧
  (∀ (u : State) (p : Point) (comp : Nat) (mass length breadth : Int),
      ((∀ c, (comp, c) ∉ u.ownCompartments) → placementRefusal u p comp mass length breadth = some .notOwned) ∧
      (∀ c, (comp, c) ∈ u.ownCompartments →
        let inside := c.xFrom ≤ p.x ∧ p.x ≤ c.xTo ∧ c.yFrom ≤ p.y ∧ p.y ≤ c.yTo ∧ c.zFrom ≤ p.z ∧ p.z ≤ c.zTo
        let carried := mass * 1000000 ≤ c.pressure.getD 0 * length * breadth
        (¬ inside → placementRefusal u p comp mass length breadth = some .outOfCompartment) ∧
        (inside → ¬ carried → placementRefusal u p comp mass length breadth = some .pressure) ∧
        (inside → carried → placementRefusal u p comp mass length breadth = none)))

/-- The segregation check: a pair of classed items passes by the code of their classes, and a classed item fails where any pair
with another record at its R24 position or with a map entry fails; for a trial a PLANNED_IN record stands where its topmost MOVE
puts it, and the stack's classed ADD entries are tested against too (R10, R24, R47). -/
def Obligations.SegregationTestsEveryKnownItem : Prop :=
  (∀ (g : Segregation) (p q : Classed),
      let code := segregationCode g p.cls q.cls
      let apart := fun (d : Int) => d * d ≤ (p.x - q.x) * (p.x - q.x) + (p.y - q.y) * (p.y - q.y)
      (∀ row v, 1 ≤ p.cls → 1 ≤ q.cls → g.matrix[p.cls - 1]? = some row → row[q.cls - 1]? = some v → code = v) ∧
      (code = 0 → pairPasses g p q = true) ∧ (code = 1 → (pairPasses g p q = true ↔ apart g.d1)) ∧
      (code = 2 → (pairPasses g p q = true ↔ apart g.d2)) ∧
      (code = 3 → (pairPasses g p q = true ↔ p.comp ≠ q.comp)) ∧
      (code = 4 → (pairPasses g p q = true ↔ p.comp ≠ q.comp ∧ apart g.d3))) ∧
  (∀ (u : State) (own cls : Option Nat) (p : Point) (comp : Nat) (stack : List TrialEntry),
      let fails := fun (others : Classed → Prop) => ∃ c q, cls = some c ∧ others q ∧
        pairPasses u.img.segregation ⟨c, p.x, p.y, comp⟩ q = false
      let mapped := fun (q : Classed) => ∃ e ∈ u.stowage.map, q = ⟨e.cls, e.x, e.y, e.comp⟩
      let other := fun (i : Item) (q : Classed) => own ≠ some i.number ∧ i.cls = some q.cls
      let stands := fun (i : Item) (q : Classed) => q.x = (tagPoint i).x ∧ q.y = (tagPoint i).y ∧ q.comp = i.comp
      (segregated u own cls p comp = true ↔
        fails fun q => mapped q ∨ ∃ i ∈ u.stowage.items, other i q ∧ stands i q) ∧
      (trialSegregated u own cls p comp stack = true ↔ fails fun q => mapped q ∨
        (∃ i ∈ u.stowage.items, other i q ∧ i.state = .plannedIn ∧
          ∃ v c, topMove i.number stack = some (v, c) ∧ q.x = v.x ∧ q.y = v.y ∧ q.comp = c) ∨
        (∃ i ∈ u.stowage.items, other i q ∧ (i.state = .plannedIn → topMove i.number stack = none) ∧ stands i q) ∨
        ∃ m v c l b, .add m v c l b (some q.cls) ∈ stack ∧ q.x = v.x ∧ q.y = v.y ∧ q.comp = c)) ∧
  (∀ i : Item, (∀ p, i.stowed = some p → tagPoint i = p) ∧
      (∀ l, i.stowed = none → i.landing = some l → tagPoint i = l.point) ∧
      (i.stowed = none → i.landing = none → tagPoint i = i.planned)) ∧
  (∀ (n : Nat) (stack : List TrialEntry) (v : Point) (c : Nat), topMove n stack = some (v, c) ↔
      ∃ below above, stack = below ++ .move n v c false :: above ∧ ∀ w d, .move n w d false ∉ above)

/-- ADD_ITEM, AMEND_ITEM, MARK_OUT and CANCEL_ITEM, accepted: a new PLANNED_IN record takes the lowest free number at the end of the
list; a record takes the fields carried, becomes PLANNED_OUT, is removed, or is STOWED again; each with the effects of a list change
and a response that waits for the retained write (R21, R28 to R30, R38, R41).
How a retained write stands until it is complete is log 9, and that a record replaced by its like counts as a change log 47. -/
def Obligations.PlanningRequests : Prop :=
  (∀ (dt : Nat) (q : Byte) (a : ItemArgs) (n : Nat) (i : Item) (s u : State), portKept s → admits 1 s →
      u = asTaken dt s → addItemRefusal a u = none → 1 ≤ n → n ≤ 255 →
      (∀ j ∈ u.stowage.items, j.number ≠ n) → (∀ m, 1 ≤ m → m < n → ∃ j ∈ u.stowage.items, j.number = m) →
      i = { number := n, label := a.label, mass := a.mass, planned := a.pos, comp := a.comp, length := a.length
            breadth := a.breadth, cls := a.cls, state := .plannedIn, direction := none, stowed := none
            landing := none } →
      ∃ v t, exec (.addItem dt q (some a)) s = .next t ∧
        listChange none (some i) (u.stowage.items ++ [i]) u.trial u.link.rotation u v ∧
        written ⟨1, q, .accepted, .itemNumber n⟩ v t) ∧
  (∀ (dt : Nat) (q : Byte) (n : Nat) (i : Item) (s u : State), portKept s → u = asTaken dt s → u.role ≠ .tank →
      1 ≤ n → n ≤ 255 → findItem n u.stowage.items = some i → underClaim u n = false →
      (∀ a, admits 2 s → itemArgsInRange u a = true → amendRefusal i a u = none →
        ∃ j v t, exec (.amendItem dt q (some ⟨n, a⟩)) s = .next t ∧
          j = { i with
            label := a.label, mass := a.mass, planned := a.pos, comp := a.comp, length := a.length
            breadth := a.breadth, cls := a.cls } ∧
          listChange (some i) (some j) (replaceItem j u.stowage.items) u.trial u.link.rotation u v ∧
          written ⟨2, q, .accepted, .empty⟩ v t) ∧
      (admits 3 s → i.state = .stowed → ∃ j v t, exec (.markOut dt q (some n)) s = .next t ∧
        j = { i with state := .plannedOut } ∧
        listChange (some i) (some j) (replaceItem j u.stowage.items) u.trial u.link.rotation u v ∧
        written ⟨3, q, .accepted, .empty⟩ v t) ∧
      (admits 4 s → i.state = .plannedIn → ∃ v t, exec (.cancelItem dt q (some n)) s = .next t ∧
        listChange (some i) none (removeItem n u.stowage.items) (voidMoves n u.trial) (rotationWithout n u) u v ∧
        written ⟨4, q, .accepted, .empty⟩ v t) ∧
      (admits 4 s → i.state = .plannedOut → ∃ j v t, exec (.cancelItem dt q (some n)) s = .next t ∧
        j = { i with state := .stowed } ∧
        listChange (some i) (some j) (replaceItem j u.stowage.items) u.trial u.link.rotation u v ∧
        written ⟨4, q, .accepted, .empty⟩ v t))

/-- STOW_DIRECT and DISCHARGE_DIRECT, accepted: the movement ends with its DONE and journal record, then the list changes;
cargo stowed against the segregation matrix is stowed and SEGREGATION latched (R25, R36, R37, R41).
How a retained write stands until it is complete is log 9. -/
def Obligations.DirectMoves : Prop :=
  ∀ (dt : Nat) (q : Byte) (n : Nat) (i : Item) (s u : State), portKept s → u = asTaken dt s → u.role ≠ .tank →
    1 ≤ n → n ≤ 255 → findItem n u.stowage.items = some i → underClaim u n = false →
    (∀ pos comp p c, admits 5 s → placeInRange u pos comp = true → i.state = .plannedIn →
      p = pos.getD i.planned → c = comp.getD i.comp → placementRefusal u p c i.mass i.length i.breadth = none →
      ∃ j e v t, exec (.stowDirect dt q (some ⟨n, pos, comp⟩)) s = .next t ∧
        j = { i with state := .stowed, stowed := some p, comp := c, direction := none, landing := none } ∧
        movementEnds ⟨0, .shoreStowed, n, i.label, i.mass, c, i.cls, some p⟩ u e ∧
        listChange (some i) (some j) (replaceItem j u.stowage.items) (voidMoves n u.trial) e.link.rotation e v ∧
        written ⟨5, q, .accepted, .empty⟩ (latchIf (segregated v (some n) i.cls p c) .segregation v) t) ∧
    (admits 6 s → i.state = .plannedOut →
      ∃ e v t, exec (.dischargeDirect dt q (some n)) s = .next t ∧
        movementEnds ⟨0, .shoreDischarged, n, i.label, i.mass, i.comp, i.cls, none⟩ u e ∧
        listChange (some i) none (removeItem n u.stowage.items) (voidMoves n u.trial) (rotationWithout n e) e v ∧
        written ⟨6, q, .accepted, .empty⟩ v t)

/-- RESOLVE_ITEM, accepted: an UNRESOLVED item is stowed where it lies, planned again, or removed; no movement ends (R39).
How a retained write stands until it is complete is log 9. -/
def Obligations.ResolveItem : Prop :=
  ∀ (dt : Nat) (q : Byte) (n : Nat) (i : Item) (s u : State), portKept s → admits 7 s → u = asTaken dt s →
    u.role ≠ .tank → 1 ≤ n → n ≤ 255 → findItem n u.stowage.items = some i → i.state = .unresolved →
    (∀ p c, pointInRange p = true → compInRange u c = true →
      (placementRefusal u p c i.mass i.length i.breadth = none →
        ∃ j v t, exec (.resolveItem dt q (some ⟨n, .stow (some p) (some c)⟩)) s = .next t ∧
          j = { i with state := .stowed, stowed := some p, comp := c, direction := none, landing := none } ∧
          listChange (some i) (some j) (replaceItem j u.stowage.items) u.trial u.link.rotation u v ∧
          written ⟨7, q, .accepted, .empty⟩ (latchIf (segregated v (some n) i.cls p c) .segregation v) t) ∧
      (∀ r, placementRefusal u p c i.mass i.length i.breadth = some r →
        ∃ t, exec (.resolveItem dt q (some ⟨n, .stow (some p) (some c)⟩)) s = .next t ∧
          responded ⟨7, q, r, .empty⟩ u t)) ∧
    (∃ j v t, exec (.resolveItem dt q (some ⟨n, .plan⟩)) s = .next t ∧ j = { i with state := .plannedIn } ∧
      listChange (some i) (some j) (replaceItem j u.stowage.items) u.trial u.link.rotation u v ∧
      written ⟨7, q, .accepted, .empty⟩ v t) ∧
    (∃ v t, exec (.resolveItem dt q (some ⟨n, .remove⟩)) s = .next t ∧
      listChange (some i) none (removeItem n u.stowage.items) (voidMoves n u.trial) (rotationWithout n u) u v ∧
      written ⟨7, q, .accepted, .empty⟩ v t)

/-- SET_DOWN, accepted: a target LANDED aboard stows, one LANDED ashore returns to the plan or is discharged; the movement ends,
the list changes, and the own COMMITTED claim that names the target ends (R35, R36, R136).
How a retained write stands until it is complete is log 9. -/
def Obligations.SetDownStowsReturnsOrDischarges : Prop :=
  ∀ (dt : Nat) (q : Byte) (item : Option Nat) (pos : Option Point) (comp : Option Nat) (i : Item) (l : Landing)
    (k : Nat) (s u : State), portKept s → stowageKept s → claimKept s → admits 16 s → u = asTaken dt s → u.role = .crane →
    placeInRange u pos comp = true → item.all itemInRange = true → setDownTarget item u = some i →
    i.state = .landed → i.landing = some l → (underClaim u i.number = true → u.claim.state = .committed) →
    k = (if committedFor u i then claimNumber u else 0) →
    let ends := fun (v w : State) =>
      if committedFor u i then claimChange { u.claim with
        state := .none, record := none, holdExpiry := none, backoffExpiry := none, commitTime := none
        overdue := false, conflict := false, pending := false } v w
      else w = v
    (∀ p c, l.aboard = true → setDownPlace u i pos comp = some (p, c) →
      placementRefusal u p c i.mass i.length i.breadth = none →
      ∃ j e v w t, exec (.setDown dt q (some ⟨item, pos, comp⟩)) s = .next t ∧
        j = { i with state := .stowed, stowed := some p, comp := c, direction := none, landing := none } ∧
        movementEnds ⟨k, if i.direction = some .outbound then .restowed else .stowed, i.number, i.label, i.mass, c,
          i.cls, some p⟩ u e ∧
        listChange (some i) (some j) (replaceItem j u.stowage.items) u.trial e.link.rotation e v ∧
        ends (latchIf (segregated v (some i.number) i.cls p c) .segregation v) w ∧
        written ⟨16, q, .accepted, .empty⟩ w t) ∧
    (l.aboard = false → i.direction ≠ some .outbound →
      ∃ j e v w t, exec (.setDown dt q (some ⟨item, pos, comp⟩)) s = .next t ∧
        j = { i with state := .plannedIn, direction := none, landing := none } ∧
        movementEnds ⟨k, .returned, i.number, i.label, i.mass, i.comp, i.cls, none⟩ u e ∧
        listChange (some i) (some j) (replaceItem j u.stowage.items) u.trial e.link.rotation e v ∧ ends v w ∧
        written ⟨16, q, .accepted, .empty⟩ w t) ∧
    (l.aboard = false → i.direction = some .outbound →
      ∃ e v w t, exec (.setDown dt q (some ⟨item, pos, comp⟩)) s = .next t ∧
        movementEnds ⟨k, .discharged, i.number, i.label, i.mass, i.comp, i.cls, none⟩ u e ∧
        listChange (some i) none (removeItem i.number u.stowage.items) (voidMoves i.number u.trial)
          (rotationWithout i.number e) e v ∧ ends v w ∧ written ⟨16, q, .accepted, .empty⟩ w t)

/-- SET_DOWN: its target is the item named, else the item of the COMMITTED claim, else the one LANDED item; it stows at the place
given, else the planned place, else the landing point in the own compartment of lowest id that contains it; and it is refused
with ROLE, RANGE, UNKNOWN_ITEM, LOADED, ITEM_STATE, CLAIM_ACTIVE, OUT_OF_COMPARTMENT or a placement check (R23, R25, R34, R35). -/
def Obligations.SetDownTargetPlaceAndRefusals : Prop :=
  (∀ (u : State) (i : Item),
      (∀ n, setDownTarget (some n) u = findItem n u.stowage.items) ∧
      (∀ c, u.claim.state = .committed → u.claim.record = some c →
        setDownTarget none u = findItem c.item u.stowage.items) ∧
      (u.claim.state ≠ .committed → ∀ j, setDownTarget none u = some j ↔
        ∃ as bs, u.stowage.items = as ++ j :: bs ∧ j.state = .landed ∧ ∀ o ∈ as ++ bs, o.state ≠ .landed) ∧
      (∀ p c, setDownPlace u i (some p) (some c) = some (p, c)) ∧
      (i.direction ≠ some .outbound → setDownPlace u i none none = some (i.planned, i.comp)) ∧
      (∀ l p c, i.direction = some .outbound → i.landing = some l →
        (setDownPlace u i none none = some (p, c) ↔ p = l.point ∧
          ∃ as b bs, u.ownCompartments = as ++ (c, b) :: bs ∧ insideBounds b p = true ∧
            ∀ o ∈ as, insideBounds o.2 p = false))) ∧
  (∀ (dt : Nat) (q : Byte) (item : Option Nat) (pos : Option Point) (comp : Option Nat) (s u : State), admits 16 s →
      u = asTaken dt s →
      let refused := fun r => ∃ t, exec (.setDown dt q (some ⟨item, pos, comp⟩)) s = .next t ∧
        responded ⟨16, q, r, .empty⟩ u t
      let inRange := placeInRange u pos comp = true ∧ item.all itemInRange = true
      (u.role ≠ .crane → refused .role) ∧
      (u.role = .crane → ¬ inRange → refused .range) ∧
      (u.role = .crane → inRange → setDownTarget item u = none → refused .unknownItem) ∧
      (∀ i, u.role = .crane → inRange → setDownTarget item u = some i →
        (i.state = .slung → refused .loaded) ∧
        (i.state ≠ .slung → i.state ≠ .landed → refused .itemState) ∧
        (i.state = .landed → underClaim u i.number = true → u.claim.state ≠ .committed → refused .claimActive) ∧
        (∀ l, i.state = .landed → (underClaim u i.number = true → u.claim.state = .committed) →
          i.landing = some l → l.aboard = true →
          (setDownPlace u i pos comp = none → refused .outOfCompartment) ∧
          (∀ p c r, setDownPlace u i pos comp = some (p, c) →
            placementRefusal u p c i.mass i.length i.breadth = some r → refused r))))

/-! ### The classed-item map, TAGs and trials -/

/-- A TAG sets, replaces or removes the map entry of its station and item; one for which there is no room marks the map
incomplete and latches TAG_MAP_FULL, and one out of range changes nothing, nor does any in FAULT. MAP_SETTLE_EXPIRY clears the mark once the map has
held fewer than 48 entries for 130 s. The TAG of a list change is present for an item classed after it, withdrawn for one classed
before it alone, none otherwise; it takes the place of a waiting TAG of the item at the end of the queue, and where 32 other fixed frames wait it is not queued
and LINK_TX is latched (R26, R27, R41, R112, R113).
That one out of range changes nothing also where it is present, not held and 48 entries are held is log 54. -/
def Obligations.TagFramesAndListTags : Prop :=
  (∀ (dt k : Nat) (b : TagBody) (bytes : List Byte) (s u : State), u = elapse dt s → frameTaken ⟨k, .tag b⟩ bytes u →
      working u = true →
      let held := ∃ e ∈ u.stowage.map, e.station = k ∧ e.item = b.item
      let inRange := 1 ≤ b.cls ∧ b.cls ≤ 9 ∧ 1 ≤ b.item ∧ b.item ≤ 255 ∧ 1 ≤ b.comp ∧
        b.comp ≤ u.img.compartments.length
      let settle := fun (m : List MapEntry) =>
        if 48 ≤ m.length then none else if 48 ≤ u.stowage.map.length then some u.now else u.stowage.settleStart
      let becomes := fun (m : List MapEntry) => exec (.tag dt bytes) s =
        .next (u.setStowage { u.stowage with map := m, settleStart := settle m })
      (¬ inRange → exec (.tag dt bytes) s = .next u) ∧
      (inRange → b.present = true → held → becomes (u.stowage.map.map (fun e =>
        if e.station = k ∧ e.item = b.item then ⟨k, b.item, b.cls, b.x, b.y, b.comp⟩ else e))) ∧
      (inRange → b.present = true → ¬ held → u.stowage.map.length < 48 →
        becomes (u.stowage.map ++ [⟨k, b.item, b.cls, b.x, b.y, b.comp⟩])) ∧
      (inRange → b.present = true → ¬ held → 48 ≤ u.stowage.map.length →
        ∃ t, exec (.tag dt bytes) s = .next t ∧ t.stowage = { u.stowage with mapIncomplete := true } ∧
          t.report.latched = insertKind .tagMapFull u.report.latched ∧ onlyChanges [.stowage, .report] u t) ∧
      (inRange → b.present = false → held → becomes (u.stowage.map.filter (fun e =>
        !decide (e.station = k ∧ e.item = b.item)))) ∧
      (inRange → b.present = false → ¬ held → exec (.tag dt bytes) s = .next u)) ∧
  (∀ (dt k : Nat) (b : TagBody) (bytes : List Byte) (s u : State), u = elapse dt s → frameTaken ⟨k, .tag b⟩ bytes u →
      working u = false → exec (.tag dt bytes) s = .next u) ∧
  (∀ (dt a : Nat) (s : State), working s = true → s.stowage.mapIncomplete = true → s.stowage.map.length < 48 →
      s.stowage.settleStart = some a →
      (s.station.timer + dt < a + 130000 → exec (.mapSettleExpiry dt) s = .next (elapse dt s)) ∧
      (a + 130000 ≤ s.station.timer + dt → exec (.mapSettleExpiry dt) s =
        .next ((elapse dt s).setStowage { s.stowage with mapIncomplete := false, settleStart := none }))) ∧
  (∀ (u : State) (before : Option Item) (i : Item),
      let others := u.link.queue.filter (fun f => !isTagFor i.number f)
      let unqueued := fun (tagged : List TagBody) (v : State) =>
        v.link = { u.link with queue := others, tagged := tagged } ∧
          (u.station.state ≠ .halt → .linkTx ∈ v.report.latched) ∧ onlyChanges [.link, .report] u v
      (∀ c b, i.cls = some c → b = ⟨i.number, c, true, (tagPoint i).x, (tagPoint i).y, i.comp⟩ →
        (others.length < 32 → tagChange before (some i) u = u.setLink { u.link with
          queue := others ++ [.tag b]
          tagged := u.link.tagged.filter (fun t => decide (t.item ≠ i.number)) ++ [b] }) ∧
        (32 ≤ others.length → unqueued u.link.tagged (tagChange before (some i) u))) ∧
      (∀ c b after, i.cls = some c → after.bind (·.cls) = none →
        b = { (u.link.tagged.find? (fun t => decide (t.item = i.number))).getD
          ⟨i.number, c, true, (tagPoint i).x, (tagPoint i).y, i.comp⟩ with present := false } →
        (others.length < 32 → tagChange (some i) after u = u.setLink { u.link with
          queue := others ++ [.tag b]
          tagged := u.link.tagged.filter (fun t => decide (t.item ≠ i.number)) }) ∧
        (32 ≤ others.length → unqueued (u.link.tagged.filter (fun t => decide (t.item ≠ i.number)))
          (tagChange (some i) after u))) ∧
      (before.bind (·.cls) = none → i.cls = none → tagChange before (some i) u = u))

/-- TRIAL_ADD and TRIAL_MOVE, accepted, push an entry on top; TRIAL_DROP removes the top one and TRIAL_CLEAR all, STACK_EMPTY for a
drop with none held, ROLE at a TANK station, RANGE for a body that does not fit; the solver is marked dirty when the stack changed
(R45, R46, R49, R53, R186).
That the refusals carry the entries held is log 29, what counts as a body that does not fit log 7, and that a push finds a write of
the list complete log 9. -/
def Obligations.TrialStackRequests : Prop :=
  ∀ (dt : Nat) (q : Byte) (s u x : State), u = asTaken dt s → x = asUsed dt s →
    let becomes := fun (v : State) (c : Instr) code stack body => ∃ t, exec c s = .next t ∧ t.trial = stack ∧
      t.solver = { v.solver with dirty := true } ∧ t.panel = ⟨none, v.panel.out ++ [⟨code, q, .accepted, body⟩]⟩ ∧
      onlyChanges [.trial, .solver, .panel] v t
    (∀ a, admits 9 s → trialAddRefusal a x = none → becomes x (.trialAdd dt q (some a)) 9
      (x.trial ++ [.add a.mass a.pos a.comp a.length a.breadth a.cls])
      (.pushed (x.trial.length + 1) (x.trial.length + 1))) ∧
    (∀ a i, admits 10 s → trialMoveEarly a x = none → findItem a.item x.stowage.items = some i →
      trialMoveRefusal a i x = none → becomes x (.trialMove dt q (some a)) 10
        (x.trial ++ [.move a.item a.pos a.comp false]) (.pushed (x.trial.length + 1) (x.trial.length + 1))) ∧
    (∀ below e, admits 11 s → u.role ≠ .tank → u.trial = below ++ [e] →
      becomes u (.trialDrop dt ⟨q, true⟩) 11 below (.dropped (isMove e) below.length)) ∧
    (admits 11 s → u.role ≠ .tank → u.trial = [] → ∃ t, exec (.trialDrop dt ⟨q, true⟩) s = .next t ∧
      responded ⟨11, q, .stackEmpty, .held 0⟩ u t) ∧
    (admits 12 s → u.role ≠ .tank → u.trial ≠ [] → becomes u (.trialClear dt ⟨q, true⟩) 12 [] (.held 0)) ∧
    (admits 12 s → u.role ≠ .tank → u.trial = [] → ∃ t, exec (.trialClear dt ⟨q, true⟩) s = .next t ∧
      responded ⟨12, q, .accepted, .held 0⟩ u t) ∧
    (∀ (fits : Bool) (c : Instr) code r, c ∈ [.trialDrop dt ⟨q, fits⟩, .trialClear dt ⟨q, fits⟩] →
      requestOf c = some (code, q) → admits code s →
      (u.role = .tank ∧ r = .role) ∨ (u.role ≠ .tank ∧ fits = false ∧ r = .range) →
      ∃ t, exec c s = .next t ∧ responded ⟨code, q, r, .held u.trial.length⟩ u t)

/-- TRIAL_ADD, TRIAL_MOVE and TRIAL_ADOPT, refused: the checks of R45, R46 and R50 in their order give the result with the entries
held; an adoption that fails at an entry names the first one from the bottom, and the stack and the list stand (R53, R186).
That a refused TRIAL_ADD or TRIAL_MOVE carries the entries held is log 29, what counts as a body that does not fit log 7, and that
a write of the list is complete log 9. -/
def Obligations.TrialRequestsRefusedInOrder : Prop :=
  (∀ (dt : Nat) (q : Byte) (s u : State), u = asUsed dt s →
      let refused := fun (c : Instr) r => ∀ code, requestOf c = some (code, q) → admits code s →
        ∃ t, exec c s = .next t ∧ responded ⟨code, q, r, .held u.trial.length⟩ u t
      let blocked := fun (c : Option Nat) => c.isSome = true ∧ u.stowage.mapIncomplete = true
      (∀ a b, u.role = .tank → refused (.trialAdd dt q a) .role ∧ refused (.trialMove dt q b) .role) ∧
      (u.role ≠ .tank → refused (.trialAdd dt q none) .range ∧ refused (.trialMove dt q none) .range) ∧
      (∀ a, u.role ≠ .tank →
        let add := Instr.trialAdd dt q (some a)
        let inRange := 1 ≤ a.mass ∧ a.mass ≤ 100000 ∧ pointInRange a.pos = true ∧ 1 ≤ a.comp ∧
          a.comp ≤ u.img.compartments.length ∧ 100 ≤ a.length ∧ a.length ≤ 30000 ∧ 100 ≤ a.breadth ∧
          a.breadth ≤ 30000 ∧ ∀ c, a.cls = some c → 1 ≤ c ∧ c ≤ 9
        (¬ inRange → refused add .range) ∧
        (inRange → 8 ≤ u.trial.length → refused add .stackFull) ∧
        (inRange → u.trial.length < 8 → blocked a.cls → refused add .mapFull) ∧
        (inRange → u.trial.length < 8 → ¬ blocked a.cls →
          (∀ r, placementRefusal u a.pos a.comp a.mass a.length a.breadth = some r → refused add r) ∧
          (placementRefusal u a.pos a.comp a.mass a.length a.breadth = none →
            trialSegregated u none a.cls a.pos a.comp u.trial = true → refused add .segregation))) ∧
      (∀ a, u.role ≠ .tank →
        let move := Instr.trialMove dt q (some a)
        let inRange := 1 ≤ a.item ∧ a.item ≤ 255 ∧ pointInRange a.pos = true ∧ 1 ≤ a.comp ∧
          a.comp ≤ u.img.compartments.length
        (¬ inRange → refused move .range) ∧
        (inRange → 8 ≤ u.trial.length → refused move .stackFull) ∧
        (inRange → u.trial.length < 8 → findItem a.item u.stowage.items = none → refused move .unknownItem) ∧
        (∀ i, inRange → u.trial.length < 8 → findItem a.item u.stowage.items = some i →
          (i.state ≠ .plannedIn → refused move .itemState) ∧
          (i.state = .plannedIn → underClaim u a.item = true → refused move .claimActive) ∧
          (i.state = .plannedIn → underClaim u a.item = false → blocked i.cls → refused move .mapFull) ∧
          (i.state = .plannedIn → underClaim u a.item = false → ¬ blocked i.cls →
            (∀ r, placementRefusal u a.pos a.comp i.mass i.length i.breadth = some r → refused move r) ∧
            (placementRefusal u a.pos a.comp i.mass i.length i.breadth = none →
              trialSegregated u (some a.item) i.cls a.pos a.comp u.trial = true → refused move .segregation))))) ∧
  (∀ (dt : Nat) (q : Byte) (fits : Bool) (s u : State), admits 13 s → u = asUsed dt s →
      let refused := fun r => ∃ t, exec (.trialAdopt dt ⟨q, fits⟩) s = .next t ∧
        responded ⟨13, q, r, .held u.trial.length⟩ u t
      let claimed := ∃ n p c, .move n p c false ∈ u.trial ∧ underClaim u n = true
      let classed := (∃ m p k l b c, .add m p k l b (some c) ∈ u.trial) ∨
        ∃ n p c i, .move n p c false ∈ u.trial ∧ findItem n u.stowage.items = some i ∧ i.cls ≠ none
      (u.role = .tank → refused .role) ∧ (u.role ≠ .tank → fits = false → refused .range) ∧
      (u.role ≠ .tank → fits = true →
        (u.trial = [] → refused .stackEmpty) ∧ (claimed → refused .claimActive) ∧
        (u.trial ≠ [] → ¬ claimed → 64 < u.stowage.items.length + countAdds u.trial → refused .listFull) ∧
        (¬ claimed → u.stowage.items.length + countAdds u.trial ≤ 64 → u.stowage.mapIncomplete = true → classed →
          refused .mapFull) ∧
        (∀ below e rest r, adoptEarly u = none → u.trial = below ++ e :: rest →
          (∀ as o bs, below = as ++ o :: bs → entryRefusal u as o = none) → entryRefusal u below e = some r →
          ∃ t, exec (.trialAdopt dt ⟨q, fits⟩) s = .next t ∧
            responded ⟨13, q, r, .adoptFailed (below.length + 1) u.trial.length⟩ u t))) ∧
  (∀ (u : State) (below : List TrialEntry),
      (∀ m p k l b c, entryRefusal u below (.add m p k l b c) = (placementRefusal u p k m l b).or
        (if trialSegregated u none c p k below = true then some .segregation else none)) ∧
      (∀ n p k, entryRefusal u below (.move n p k true) = none) ∧
      (∀ n p k i, findItem n u.stowage.items = some i → entryRefusal u below (.move n p k false) =
        (placementRefusal u p k i.mass i.length i.breadth).or
          (if trialSegregated u (some i.number) i.cls p k below = true then some .segregation else none)))

/-- TRIAL_ADOPT, accepted: every entry but the VOID ones is applied from the bottom up, each with its TAG, the stack is emptied, the
items given are answered, and one retained write carries all of it, with its SHARE cause; a stack of VOID entries alone is answered
at once (R41, R50, R51, R53).
The answer at once is log 30, and how a retained write stands until it is complete log 9. -/
def Obligations.TrialAdoptAppliesTheStack : Prop :=
  ∀ (dt : Nat) (q : Byte) (s u : State), movesKept s → admits 13 s → u = asUsed dt s → adoptEarly u = none →
    stackRefusal u [] u.trial = none →
    let r := Response.mk 13 q .accepted
      (.adopted (adoptedItems u.stowage.items u.trial).1 (u.trial.filter isVoid).length 0)
    let w := adoptedTags u.stowage.items u.trial u
    ∃ v t, exec (.trialAdopt dt ⟨q, true⟩) s = .next t ∧ v.trial = [] ∧
      v.stowage = { u.stowage with items := (adoptedItems u.stowage.items u.trial).2 } ∧
      v.solver = { u.solver with dirty := true } ∧ v.report = w.report ∧
      onlyChanges [.stowage, .trial, .solver, .link, .report] u v ∧
      (if u.trial.all isVoid then responded r v t ∧ v.stowage.items = u.stowage.items ∧ v.link = u.link
        else written r v t ∧ v.link = { w.link with placeholder := true, wakeCause := false })

/-- An adoption changes neither FINAL nor what it rests on: the FINAL a pass computes before it and after it are one record
(R52).
How a retained write stands until it is complete is log 9. -/
def Obligations.AdoptionKeepsFinal : Prop :=
  ∀ (dt n : Nat) (q : Byte) (s u t : State), stowageKept s → movesKept s → admits 13 s → u = asUsed dt s →
    adoptEarly u = none → stackRefusal u [] u.trial = none → exec (.trialAdopt dt ⟨q, true⟩) s = .next t →
    finalRecord (passInput (snapshotOf t) t) n = finalRecord (passInput (snapshotOf u) u) n

/-! ### Lift claims -/

/-- LIFT_REQUEST, accepted: the claim takes its number and record and probes, and the response waits for the probe. Refused: the
checks of R127 in their order give the result, and nothing else changes (R123, R126, R127, R186).
What counts as a body that does not fit is log 7, and that a write of the list is complete log 9. -/
def Obligations.LiftRequestProbesOrIsRefused : Prop :=
  (∀ (dt : Nat) (q : Byte) (a : LiftArgs) (i : Item) (h : HookValues) (s u : State), admits 14 s → u = asUsed dt s →
      u.role = .crane → 1 ≤ a.item → a.item ≤ 255 → a.cls ≤ 3 → a.a1 ≤ 1023 → a.a2 ≤ 1023 →
      u.craneData.rmin ≤ a.maxRadius → a.maxRadius ≤ u.craneData.rmax → u.claim.state = .none →
      findItem a.item u.stowage.items = some i → i.state = .plannedIn ∨ i.state = .plannedOut →
      i.mass + u.craneData.rigging ≤ u.craneData.swl → u.crane.held = some h → h.load < u.craneData.pick →
      ∃ v, exec (.liftRequest dt q (some a)) s = .next (v.setPanel ⟨some ⟨14, q⟩, u.panel.out⟩) ∧
        claimChange { u.claim with
          state := .probing, nextNumber := if 255 ≤ u.claim.nextNumber then 1 else u.claim.nextNumber + 1
          record := some
            { station := u.ownNumber.getD 0, number := u.claim.nextNumber, cls := a.cls, phase := none, item := a.item
              mass := i.mass + u.craneData.rigging, a1 := a.a1, a2 := a.a2, maxRadius := a.maxRadius
              worst := worstPoint u.craneData a.a1 a.a2 a.maxRadius
              source := if i.state = .plannedOut then some ⟨i.mass, i.stowed.getD i.planned, true⟩ else none }
          withdrawals := 0, pending := true } u v) ∧
  (∀ (dt : Nat) (q : Byte) (s u : State), admits 14 s → u = asUsed dt s →
      (∀ o, u.role ≠ .crane → ∃ t, exec (.liftRequest dt q o) s = .next t ∧ responded ⟨14, q, .role, .empty⟩ u t) ∧
      (u.role = .crane → ∃ t, exec (.liftRequest dt q none) s = .next t ∧ responded ⟨14, q, .range, .empty⟩ u t)) ∧
  (∀ (dt : Nat) (q : Byte) (a : LiftArgs) (s u : State), admits 14 s → u = asUsed dt s →
      let refused := fun r => ∃ t, exec (.liftRequest dt q (some a)) s = .next t ∧ responded ⟨14, q, r, .empty⟩ u t
      let inRange := 1 ≤ a.item ∧ a.item ≤ 255 ∧ a.cls ≤ 3 ∧ a.a1 ≤ 1023 ∧ a.a2 ≤ 1023 ∧
        u.craneData.rmin ≤ a.maxRadius ∧ a.maxRadius ≤ u.craneData.rmax
      (u.role = .crane → ¬ inRange → refused .range) ∧
      (u.role = .crane → inRange → u.claim.state ≠ .none → refused .claimActive) ∧
      (u.role = .crane → inRange → u.claim.state = .none → findItem a.item u.stowage.items = none →
        refused .unknownItem) ∧
      (∀ i, u.role = .crane → inRange → u.claim.state = .none → findItem a.item u.stowage.items = some i →
        (i.state ≠ .plannedIn → i.state ≠ .plannedOut → refused .itemState) ∧
        (i.state = .plannedIn ∨ i.state = .plannedOut →
          (u.craneData.swl < i.mass + u.craneData.rigging → refused .range) ∧
          (i.mass + u.craneData.rigging ≤ u.craneData.swl →
            (u.crane.held = none → refused .loaded) ∧
            (∀ h, u.crane.held = some h → u.craneData.pick ≤ h.load → refused .loaded)))))

/-- LIFT_ABORT ends a claim that is PROBING, in BACKOFF or ANNOUNCED (with a YIELD, or LINK_TX latched for a full queue), or COMMITTED with its item still planned (with an
ABANDONED summary); with no claim it is refused STATE, with the item SLUNG LOADED, with it LANDED ITEM_STATE;
at a station without a crane ROLE, with a body that does not fit RANGE (R113, R137, R186).
How a retained write stands until it is complete is log 9, and what counts as a body that does not fit log 7. -/
def Obligations.LiftAbortByClaimState : Prop :=
  ∀ (dt : Nat) (q : Byte) (s u : State), portKept s → claimKept s → admits 15 s → u = asUsed dt s →
    let ended := { u.claim with
      state := .none, record := none, holdExpiry := none, backoffExpiry := none, commitTime := none, overdue := false
      conflict := false, pending := false }
    let refused := fun fits r => ∃ t, exec (.liftAbort dt ⟨q, fits⟩) s = .next t ∧ responded ⟨15, q, r, .empty⟩ u t
    (∀ fits, u.role ≠ .crane → refused fits .role) ∧ (u.role = .crane → refused false .range) ∧
    (u.role = .crane →
      (u.claim.state = .none → refused true .state) ∧
      (u.claim.state = .probing ∨ u.claim.state = .backoff → ∃ v t, exec (.liftAbort dt ⟨q, true⟩) s = .next t ∧
        claimChange ended u v ∧ responded ⟨15, q, .accepted, .empty⟩ v t) ∧
      (u.claim.state = .announced → ∃ e v t, exec (.liftAbort dt ⟨q, true⟩) s = .next t ∧
        frameQueued (.yield (claimNumber u)) u e ∧ claimChange ended e v ∧
        responded ⟨15, q, .accepted, .empty⟩ v t) ∧
      (∀ c i, u.claim.state = .committed → u.claim.record = some c → findItem c.item u.stowage.items = some i →
        (i.state = .plannedIn ∨ i.state = .plannedOut → ∃ e v t, exec (.liftAbort dt ⟨q, true⟩) s = .next t ∧
          movementEnds ⟨c.number, .abandoned, i.number, i.label, i.mass, i.comp, i.cls, none⟩ u e ∧
          claimChange ended e v ∧
          (if journalRoom u then written ⟨15, q, .accepted, .empty⟩ v t
            else responded ⟨15, q, .accepted, .empty⟩ v t)) ∧
        (i.state = .slung → refused true .loaded) ∧ (i.state = .landed → refused true .itemState)))

/-- The worst point of a claim is the farthest to either side among its candidate angles: no candidate has a larger |y|, and at
equal |y| to port and to starboard it is the starboard one, and of two with the same y the earlier in the order a1, a2, 256,
768 (R124). -/
def Obligations.WorstPointIsFarthestOut : Prop :=
  ∀ (c : CraneData) (a1 a2 : Nat) (r : Int),
    let at_ := fun a => radiusPoint c.pedestalX c.pedestalY r c.jibHead a
    let candidates := [a1, a2] ++ (if insideSector a1 a2 256 then [256] else []) ++
      (if insideSector a1 a2 768 then [768] else [])
    (∃ as a bs, candidates = as ++ a :: bs ∧ worstPoint c a1 a2 r = at_ a ∧ ∀ o ∈ as, (at_ o).y ≠ (at_ a).y) ∧
    ∀ a ∈ candidates, (at_ a).y.natAbs ≤ (worstPoint c a1 a2 r).y.natAbs ∧
      ((at_ a).y.natAbs = (worstPoint c a1 a2 r).y.natAbs → (at_ a).y ≤ (worstPoint c a1 a2 r).y)

/-- A PUBLISH hands the claim unit the probe of a pass that found the claim PROBING, and the LIFT. A probe announces the claim or
refuses it, a LIFT commits or yields an ANNOUNCED claim, and a LIFT marks or clears the conflict of a COMMITTED one; a record that
does not see the claim decides nothing. A CLAIM or YIELD that finds 32 fixed frames waiting is not queued and latches LINK_TX (R83,
R113, R128 to R131, R133).
What a LIFT shows of the own claim in the other states is log 31, and the write completed first log 9. -/
def Obligations.PublishDecidesClaim : Prop :=
  (∀ (u : State) (c : ClaimRecord) (b : CondBody) (probe lift : Option CondBody), u.station.state = .run →
    u.claim.record = some c →
    let good := b.verdict = .green ∨ b.verdict = .amber
    let ended := { u.claim with
      state := .none, record := none, holdExpiry := none, backoffExpiry := none, commitTime := none, overdue := false
      conflict := false, pending := false }
    let withdrawn := { u.claim with
      state := .backoff, record := some { c with phase := none }, withdrawals := u.claim.withdrawals + 1
      holdExpiry := none, backoffExpiry := some (u.now + 250 * u.ownNumber.getD 0) }
    let given := { ended with withdrawals := u.claim.withdrawals + 1 }
    (u.claim.state = .probing → probe = some b → b.ownSeen = some ⟨.probing, some c.number⟩ →
      (good → ∃ e v, claimArrival probe lift u = (if u.claim.pending then
          answerHeld .announced (.claimNumber c.number) v else v) ∧
        frameQueued (.claim (claimNow u.stowage.items { c with phase := some .announced })) u e ∧
        claimChange { u.claim with
          state := .announced, record := some { c with phase := some .announced }
          holdExpiry := some (u.now + u.holdWindow), pending := false } e v) ∧
      (¬ good → u.claim.pending = true → ∃ v, claimArrival probe lift u =
          answerHeld .limit (.probeRefused b.verdict b.passNumber) v ∧ claimChange ended u v) ∧
      (¬ good → u.claim.pending = false → u.claim.withdrawals < 2 →
        claimChange withdrawn u (claimArrival probe lift u)) ∧
      (¬ good → u.claim.pending = false → 2 ≤ u.claim.withdrawals → ∃ v,
        claimArrival probe lift u = latch .claimYielded v ∧ claimChange given u v)) ∧
    (∀ x, u.claim.state = .announced → lift = some b → b.ownSeen = some ⟨.announced, some c.number⟩ →
      u.claim.holdExpiry = some x →
      (good → b.snapshotTime < x → claimArrival probe lift u = u) ∧
      (good → x ≤ b.snapshotTime → claimChange { u.claim with
        state := .committed, record := some { c with phase := some .committed }, holdExpiry := none
        commitTime := some u.now, overdue := false, conflict := false } u (claimArrival probe lift u)) ∧
      (¬ good → ∃ e, frameQueued (.yield c.number) u e ∧
        (u.claim.withdrawals < 2 → claimChange withdrawn e (claimArrival probe lift u)) ∧
        (2 ≤ u.claim.withdrawals → ∃ v, claimArrival probe lift u = latch .claimYielded v ∧
          claimChange given e v))) ∧
    (∀ n, u.claim.state = .committed → lift = some b → b.ownSeen = some ⟨.committed, some c.number⟩ →
      b.included = some n →
      (b.verdict ≠ .red → claimArrival probe lift u = u.setClaim { u.claim with conflict := false }) ∧
      (b.verdict = .red → 1 ≤ n.peersCommitted → claimArrival probe lift u =
        latchIf (!u.claim.conflict) .claimConflict (u.setClaim { u.claim with conflict := true })) ∧
      (b.verdict = .red → n.peersCommitted = 0 → claimArrival probe lift u = u)) ∧
    (u.claim.state = .backoff ∨
      (u.claim.state = .probing ∧ ∀ p, probe = some p → p.ownSeen ≠ some ⟨.probing, some c.number⟩) ∨
      (u.claim.state = .announced ∧ ∀ l, lift = some l → l.ownSeen ≠ some ⟨.announced, some c.number⟩) ∨
      (u.claim.state = .committed ∧ ∀ l, lift = some l → l.ownSeen ≠ some ⟨.committed, some c.number⟩) →
      claimArrival probe lift u = u)) ∧
  (∀ (dt n : Nat) (w : Snapshot) (p : PassInput) (probe lift : Option CondBody) (s u x : State), u = elapse dt s →
    working u = true → u.solver.pass = some w → p = passInput w u → x = completeWrite u →
    n = (if 4294967295 ≤ u.solver.passNumber then 1 else u.solver.passNumber + 1) →
    (w.claimState = .probing → ∃ r, probeRecord p n = some r ∧ probe = r.body) →
    (w.claimState ≠ .probing → probe = none) → lift = (liftRecord p n).body →
    ∃ t, exec (.publish dt) s = .next t ∧ t.claim = (claimArrival probe lift x).claim ∧
      t.panel = (claimArrival probe lift x).panel ∧
      (u.role ≠ .tank → t.link = (claimArrival probe lift x).link ∧ t.station = (claimArrival probe lift x).station) ∧
      (∀ k ∈ (claimArrival probe lift x).report.latched, u.role ≠ .tank ∨ k ≠ .wake → k ∈ t.report.latched))

/-- BACKOFF_EXPIRY takes a claim back to PROBING 250 ms for each station number after its withdrawal, and LIFT_OVERDUE marks a claim
overdue at the lift time limit after its commit, once (R132, R134). -/
def Obligations.ClaimTimers : Prop :=
  ∀ (dt : Nat) (s u : State), u = elapse dt s → s.station.state = .run →
    (∀ x, s.claim.state = .backoff → s.claim.backoffExpiry = some x →
      (u.now < x → exec (.backoffExpiry dt) s = .next u) ∧
      (x ≤ u.now → ∃ t, exec (.backoffExpiry dt) s = .next t ∧
        claimChange { u.claim with state := .probing, backoffExpiry := none, pending := false } u t)) ∧
    (∀ x, s.claim.state = .committed → s.claim.commitTime = some x → s.claim.overdue = false →
      let due := x + u.craneData.liftTimeLimit.toNat * 60000
      (u.now < due → exec (.liftOverdue dt) s = .next u) ∧
      (due ≤ u.now → ∃ t, exec (.liftOverdue dt) s = .next t ∧ t.claim = { u.claim with overdue := true } ∧
        t.report.latched = insertKind .liftOverdue u.report.latched ∧ onlyChanges [.claim, .report] u t)) ∧
    (s.claim.overdue = true → exec (.liftOverdue dt) s = .next u)

/-! ### Crane sensing, permits and lines -/

/-- HOOK_RECORD, accepted: the clamped values are held and the port is FRESH; the hook state, the last loaded point and the
unclaimed mark follow the thresholds; the permits are those the state then gives. A hook that appears, goes, or moves by more than
a threshold against the latest SHARE causes a SHARE; a load at the pick threshold wakes a QUIET station; a changed measured heel is
compared (R100, R115, R121, R146 to R154). -/
def Obligations.HookRecordIsHeld : Prop :=
  ∀ (dt : Nat) (bytes : List Byte) (r : HookRecord) (d : CraneData) (h : HookValues) (s u : State), u = elapse dt s →
    claimKept s → working u = true → takesInputs u = true → u.role = .crane → hookRecordOf bytes = some r → d = u.craneData →
    d.release ≤ d.pick →
    h = ⟨clamp 0 (2 * d.swl) r.load, r.slew % 1024, clamp d.rmin d.rmax r.radius, clamp 0 d.jibHead r.height⟩ →
    let pick := u.crane.carrying = false ∧ d.pick ≤ h.load
    let release := u.crane.carrying = true ∧ h.load < d.release
    let point := radiusPoint d.pedestalX d.pedestalY h.radius h.height h.slew
    let term := if d.pick ≤ h.load then some (HookTerm.mk h.load point) else none
    let cause := (hookTerm u).isSome ≠ term.isSome ∨ ∃ n f r, term = some n ∧ u.link.shareRef = some f ∧ f.hook = some r ∧
      (d.hookMassThreshold < (n.load - r.load).natAbs ∨ d.hookPosThreshold < (n.point.x - r.point.x).natAbs ∨
        d.hookPosThreshold < (n.point.y - r.point.y).natAbs)
    ∃ t, exec (.hookRecord dt bytes) s = .next t ∧ t.crane.held = some h ∧
      t.sensor = { u.sensor with port := .fresh, lastRecord := some u.now, lostReported := false } ∧
      t.crane.heel = (if u.inclinometer then (r.heel.map (clamp (-999) 999)).or u.crane.heel else none) ∧
      t.crane.lastLoaded = (if d.pick ≤ h.load then
        some point else u.crane.lastLoaded) ∧
      (cause → t.link.placeholder = true) ∧ (hookTerm u ≠ term → t.solver.dirty = true) ∧
      (¬ cause → ¬ (pick ∧ u.claim.state = .committed) → ¬ release → u.station.state ≠ .quiet → t.link = u.link) ∧
      (u.station.state = .quiet → d.pick ≤ h.load → .wake ∈ t.report.latched ∧ t.link.placeholder = true ∧
        t.station = { u.station with state := .run, since := u.now, quietStart := none }) ∧
      t.view.heelFilter = (if t.crane.heel = u.crane.heel then u.view.heelFilter
        else (compareHeel (u.setCrane { u.crane with heel := t.crane.heel })).view.heelFilter) ∧
      (pick → t.crane.carrying = true) ∧ (release → t.crane.carrying = false ∧ t.crane.unclaimed = false) ∧
      (pick → u.claim.state ≠ .committed → t.crane.unclaimed = true ∧ .unclaimedLoad ∈ t.report.latched) ∧
      (¬ pick → ¬ release → t.crane.carrying = u.crane.carrying ∧ t.crane.unclaimed = u.crane.unclaimed) ∧
      (∀ c, u.claim.state = .committed → u.claim.record = some c →
        t.crane.overload = decide (c.mass + d.overloadTol < h.load) ∧
        (u.crane.overload = false → t.crane.overload = true → .claimOverload ∈ t.report.latched)) ∧
      t.crane.permits = permitsOf t ∧ t.claim = u.claim ∧ t.crane.verdict = u.crane.verdict ∧
      (¬ (pick ∧ u.claim.state = .committed) → ¬ release →
        onlyChanges [.station, .crane, .sensor, .solver, .view, .link, .report] u t)

/-- A pick under the own COMMITTED claim makes its item SLUNG, and a release lands the SLUNG item at the last loaded point, aboard
when that lies on the hull; either queues the TAG of the change, causes a SHARE, marks the solver dirty and begins a retained write
that no response waits for, and an item that leaves PLANNED_IN voids the MOVE entries that name it (R31 to R33, R38, R41, R48, R151,
R152).
How a retained write stands until it is complete is log 9. -/
def Obligations.PicksAndReleasesMoveTheItem : Prop :=
  ∀ (dt : Nat) (bytes : List Byte) (r : HookRecord) (l : Int) (s u : State), u = elapse dt s →
    working u = true → takesInputs u = true → u.role = .crane → hookRecordOf bytes = some r →
    u.craneData.release ≤ u.craneData.pick → l = clamp 0 (2 * u.craneData.swl) r.load →
    let becomes := fun (i j : Item) => ∃ t, exec (.hookRecord dt bytes) s = .next t ∧
      t.stowage = { u.stowage with items := replaceItem j u.stowage.items } ∧ t.journal = u.journal ∧
      t.memory.writing = some ⟨⟨t.stowage.items, t.journal⟩, none⟩ ∧ t.solver.dirty = true ∧
      (stowageKept s → t.link = { (tagChange (some i) (some j) u).link with
          placeholder := true, wakeCause := false } ∧
        (∀ k ∈ (tagChange (some i) (some j) u).report.latched, k ∈ t.report.latched) ∧
        t.trial = if i.state = .plannedIn then voidMoves i.number u.trial else u.trial)
    (∀ c i, u.crane.carrying = false → u.craneData.pick ≤ l → u.claim.state = .committed →
      u.claim.record = some c → findItem c.item u.stowage.items = some i →
      (i.state = .plannedIn → becomes i { i with state := .slung, direction := some .inbound }) ∧
      (i.state = .plannedOut → becomes i { i with state := .slung, direction := some .outbound, stowed := none }) ∧
      (i.state = .landed → becomes i { i with state := .slung, landing := none })) ∧
    (∀ as i bs p, u.crane.carrying = true → l < u.craneData.release → u.crane.lastLoaded = some p →
      u.stowage.items = as ++ i :: bs → (∀ o ∈ as, o.state ≠ .slung) → i.state = .slung →
      becomes i { i with
        state := .landed
        landing := some ⟨p, decide (0 ≤ p.x ∧ p.x ≤ u.img.particulars.lpp ∧
          -u.img.particulars.halfBreadth ≤ p.y ∧ p.y ≤ u.img.particulars.halfBreadth)⟩ })

/-- SENSOR_HOLDING and SENSOR_LOST follow the latest record by 300 ms and 1,300 ms, or the entry to LISTEN by 1,300 ms where there has
been none; the loss latches SENSOR_LOST and suspends a pump. SENSOR_RECORD_DISCARD counts a record that fails its checks. At a DESK
station, and in START, FAULT and HALT, no record is taken or counted and no timer of the port acts (R145, R147, R165, R166, R175).
That the loss without a record is reported once is read from R147 (log 37), and that SENSOR_LOST takes a FRESH port to LOST at once
is log 26. -/
def Obligations.SensorPortTimers : Prop :=
  (∀ (dt : Nat) (bytes : List Byte) (s u : State), u = elapse dt s → working u = false ∨ u.role = .desk →
    exec (.hookRecord dt bytes) s = .next u ∧ exec (.levelsRecord dt bytes) s = .next u ∧
    exec (.sensorRecordDiscard dt bytes) s = .next u ∧ exec (.sensorHolding dt) s = .next u ∧
    exec (.sensorLost dt) s = .next u) ∧
  ∀ (dt : Nat) (s u : State), u = elapse dt s → working u = true → u.role ≠ .desk →
    let lost := ∃ t, exec (.sensorLost dt) s = .next t ∧
      t.sensor = { u.sensor with port := .lost, lostReported := true } ∧ .sensorLost ∈ t.report.latched ∧
      t.view = { u.view with clean := cleanNow t } ∧ t.crane = { u.crane with permits := permitsOf t } ∧
      (u.role = .tank → t.pump.suspended = true ∧ t.pump.autoDemand = .none ∧ t.pump.manualDemand = .none ∧
        t.pump.ps = .inactive ∧ t.pump.sp = .inactive) ∧ (u.role ≠ .tank → t.pump = u.pump) ∧
      onlyChanges [.station, .sensor, .view, .solver, .crane, .pump, .link, .report] u t
    (∀ a, u.sensor.port = .fresh → u.sensor.lastRecord = some a →
      (u.now < a + 300 → exec (.sensorHolding dt) s = .next u) ∧
      (a + 300 ≤ u.now → ∃ t, exec (.sensorHolding dt) s = .next t ∧
        t.sensor = { u.sensor with port := .holding } ∧ t.view = { u.view with clean := cleanNow t } ∧
        t.crane = { u.crane with permits := permitsOf t } ∧
        onlyChanges [.sensor, .view, .solver, .crane] u t)) ∧
    (∀ a, u.sensor.port ≠ .lost → u.sensor.lastRecord = some a →
      (u.now < a + 1300 → exec (.sensorLost dt) s = .next u) ∧ (a + 1300 ≤ u.now → lost)) ∧
    (∀ a, u.sensor.port = .lost → u.sensor.lastRecord = none → u.sensor.lostReported = false →
      u.station.listenAt = some a →
      (u.now < a + 1300 → exec (.sensorLost dt) s = .next u) ∧ (a + 1300 ≤ u.now → lost)) ∧
    (∀ bytes, takesInputs u = true → (u.role = .crane → hookRecordOf bytes = none) →
      (u.role = .tank → levelsOf u.ownTanks.length bytes = none) →
      exec (.sensorRecordDiscard dt bytes) s = .next (u.setSensor { u.sensor with
        discarded := if u.sensor.discarded < 65535 then u.sensor.discarded + 1 else 65535 }))

/-- The permits of a held record: none unless the common conditions hold; the hoist by load, claim and verdict; the slew by the
sector of a COMMITTED claim, else free; the outreach by its max radius, else free; none beside the unclaimed mark (R155 to
R159). -/
def Obligations.PermitsFollowClaimAndHook : Prop :=
  ∀ (u : State) (h : HookValues), u.role = .crane → u.crane.held = some h →
    let common := (u.station.state = .run ∨ u.station.state = .quiet) ∧ u.sensor.port = .fresh ∧
      ∀ n ∈ lineNumbers, lineFunction u n = some .localStop → (lineInput u n).filtered = false
    let good := u.crane.verdict = .green ∨ u.crane.verdict = .amber
    (¬ common → permitsOf u = .inactive) ∧
    (u.crane.unclaimed = true → permitsOf u = .inactive) ∧
    (common → u.crane.unclaimed = false → u.claim.state = .none →
      permitsOf u = ⟨decide (h.load < u.craneData.pick), true, true, true⟩) ∧
    (common → u.crane.unclaimed = false → u.claim.state ≠ .none → u.claim.state ≠ .committed →
      permitsOf u = ⟨false, true, true, true⟩) ∧
    (∀ c, common → u.crane.unclaimed = false → u.claim.state = .committed → u.claim.record = some c →
      ((permitsOf u).hoist = true ↔ good ∧ h.load ≤ c.mass + u.craneData.overloadTol) ∧
      ((permitsOf u).outreach = true ↔ h.radius < c.maxRadius - u.craneData.radiusMargin) ∧
      (¬ good → (permitsOf u).slewCw = false ∧ (permitsOf u).slewCcw = false) ∧
      (good → c.a1 = c.a2 → (permitsOf u).slewCw = true ∧ (permitsOf u).slewCcw = true) ∧
      (∀ o w : Nat, good → c.a1 ≠ c.a2 → c.a1 < 1024 → c.a2 < 1024 → o < 1024 → w < 1024 →
        (c.a1 + o) % 1024 = h.slew % 1024 → (c.a1 + w) % 1024 = c.a2 →
        (o ≤ w → ((permitsOf u).slewCw = true ↔ (o : Int) < w - u.craneData.slewMargin) ∧
          ((permitsOf u).slewCcw = true ↔ u.craneData.slewMargin < o)) ∧
        (w < o → ((permitsOf u).slewCw = true ↔ 1024 - o ≤ o - w) ∧
          ((permitsOf u).slewCcw = true ↔ o - w < 1024 - o))))

/-- LINE_LEVEL_CHANGE starts 20 ms, and INPUT_FILTER_EXPIRY makes a level that has held for them the filtered state: shown for an
INPUT, acting on the permits for LOCAL_STOP, and for SETDOWN_BUTTON the set-down of a SET_DOWN that carries neither item nor
position, without a response. An output line is driven from its source through its sense; in the safe state permits and pumps are
inactive and ALARM is active (R14, R160 to R163).
The raw level at reset and while a line is not sampled is log 12; a sense of one bit and a function code outside the table are log 25;
how a retained write stands until it is complete is log 9, and that the filter goes on in HALT beneath its frozen readout log 19. -/
def Obligations.LinesAreFilteredAndDriven : Prop :=
  (∀ (dt n : Nat) (s u : State), u = elapse dt s → 1 ≤ n → n ≤ 12 →
      let l := lineInput u n
      let filtered := u.setLines { u.lines with inputs := u.lines.inputs.set (n - 1) { l with filtered := lineLevel u n } }
      (∀ b, l.raw ≠ b → exec (.lineLevelChange dt n b) s = .next (u.setLines { u.lines with
        inputs := u.lines.inputs.set (n - 1) { l with raw := b, since := u.now } })) ∧
      exec (.lineLevelChange dt n l.raw) s = .next u ∧
      (u.now < l.since + 20 ∨ l.filtered = lineLevel u n ∨ lineSampled u n = false →
        exec (.inputFilterExpiry dt n) s = .next u) ∧
      (takesInputs u = true → l.since + 20 ≤ u.now → l.filtered ≠ lineLevel u n →
        (lineFunction u n = some .input → exec (.inputFilterExpiry dt n) s = .next filtered) ∧
        (lineFunction u n = some .localStop → exec (.inputFilterExpiry dt n) s =
          .next (filtered.setCrane { u.crane with permits := permitsOf filtered })) ∧
        (lineFunction u n = some .setdownButton → lineLevel u n = false →
          exec (.inputFilterExpiry dt n) s = .next filtered) ∧
        (lineFunction u n = some .setdownButton → n ≤ u.lines.inputs.length → lineLevel u n = true →
          (¬ stateAdmits u.station.state 16 → exec (.inputFilterExpiry dt n) s = .next filtered) ∧
          (stateAdmits u.station.state 16 → ∀ v, v = activity filtered →
            (∀ r, setDownEffect none none none v = .inl r → exec (.inputFilterExpiry dt n) s = .next v) ∧
            (∀ w, setDownEffect none none none v = .inr w → ∃ t, exec (.inputFilterExpiry dt n) s = .next t ∧
              t.memory.writing = some ⟨⟨w.stowage.items, w.journal⟩, none⟩ ∧
              onlyChanges [.memory, .panel] w t))))) ∧
  (∀ (dt : Nat) (q : Byte) (s v : State), portKept s → admits 16 s → v = asTaken dt s → v.role = .crane →
      let setDown := exec (.setDown dt q (some ⟨none, none, none⟩)) s
      (∀ r, setDownEffect none none none v = .inl r → ∃ t, setDown = .next t ∧ responded ⟨16, q, r, .empty⟩ v t) ∧
      (∀ w, setDownEffect none none none v = .inr w → ∃ t, setDown = .next t ∧
        written ⟨16, q, .accepted, .empty⟩ w t)) ∧
  (∀ (u : State) (n : Nat) (e : LineEntry) (f : LineFunction),
      (u.lineEntry n = none → lineDriven u n = none) ∧
      (u.lineEntry n = some e → e.function = some f →
        let driven := fun b => lineDriven u n = some (if e.sense = .plain then b else !b)
        (f = .outputHigh → driven true) ∧ (f = .outputLow → driven false) ∧
        (f = .input ∨ f = .localStop ∨ f = .setdownButton → lineDriven u n = none) ∧
        (safeState u = true →
          (f ∈ [.hoistPermit, .slewCwPermit, .slewCcwPermit, .outreachPermit, .pumpPs, .pumpSp] → driven false) ∧
          (f = .alarm → driven true)) ∧
        (safeState u = false →
          (f = .alarm → driven u.report.alarm) ∧ (f = .hoistPermit → driven u.crane.permits.hoist) ∧
          (f = .slewCwPermit → driven u.crane.permits.slewCw) ∧
          (f = .slewCcwPermit → driven u.crane.permits.slewCcw) ∧
          (f = .outreachPermit → driven u.crane.permits.outreach) ∧
          (f = .pumpPs → driven (decide (u.pump.ps = .active))) ∧
          (f = .pumpSp → driven (decide (u.pump.sp = .active))))) ∧
      (safeState u = true ↔ u.power.low = true ∨ u.power.line = true ∨ u.station.state = .start ∨
        u.station.state = .fault ∨ u.station.state = .halt))

/-! ### Pumping -/

/-- LEVELS_RECORD, accepted: the clamped levels are held and the suspension ends; a direction in demand whose level limit holds is
stopped with PUMP_LIMIT latched; the outputs are evaluated, and one that becomes ACTIVE wakes a QUIET station. A tank whose mass
differs from the latest SHARE's by more than the threshold causes a SHARE (R115, R121, R166, R167, R173, R174).
That masses the SHARE did not carry are not compared is log 33; what a stop at the moment a dead interval ran out takes back is
log 45. -/
def Obligations.LevelsRecordIsHeld : Prop :=
  ∀ (dt : Nat) (bytes : List Byte) (ls : List Int) (p : Pump) (s u w : State), u = elapse dt s → working u = true →
    takesInputs u = true → u.role = .tank → levelsOf u.ownTanks.length bytes = some ls →
    w = u.setPump { u.pump with
      levels := some ((u.ownTanks.zip ls).map (fun q => clamp 0 q.1.2.height q.2)), suspended := false } →
    p = (if levelLimit w (effectiveDemand w.pump) = true then { w.pump with
        autoDemand := if w.pump.autoDemand = effectiveDemand w.pump then .none else w.pump.autoDemand
        manualDemand := if w.pump.manualDemand = effectiveDemand w.pump then .none else w.pump.manualDemand }
      else w.pump) →
    let cause := ∃ f, u.link.shareRef = some f ∧ ∃ q ∈ (tanksHeld w).zip f.tanks,
      u.pumpData.tankThreshold < (q.1.mass - q.2).natAbs
    let tied := (u.pump.ps = .active ∧ u.pump.duePs = some u.now) ∨ (u.pump.sp = .active ∧ u.pump.dueSp = some u.now)
    let runs := fun (t : State) => t.pump.ps = .active ∨ t.pump.sp = .active
    ∃ t, exec (.levelsRecord dt bytes) s = .next t ∧ t.pump = outputsFor u.now (deadInterval u) p ∧
      t.sensor = { u.sensor with port := .fresh, lastRecord := some u.now, lostReported := false } ∧
      (levelLimit w (effectiveDemand w.pump) = true → .pumpLimit ∈ t.report.latched) ∧
      (cause → t.link.placeholder = true) ∧ (¬ cause → u.station.state ≠ .quiet → ¬ tied → t.link = u.link) ∧
      (u.station.state = .quiet → runs t → .wake ∈ t.report.latched ∧
        t.link.placeholder = true ∧
        t.station = { u.station with
          state := .run, since := u.now, quietStart := none, quietBefore := t.station.quietBefore }) ∧
      (u.station.state = .quiet → u.claim.state = .none → ¬ runs t →
        t.station = { u.station with quietBefore := t.station.quietBefore } ∧
        (¬ cause → t.link = u.link)) ∧
      (tanksHeld w ≠ tanksHeld u → t.solver.dirty = true) ∧ t.view = { u.view with clean := cleanNow t } ∧
      onlyChanges [.station, .pump, .sensor, .view, .solver, .link, .report] u t

/-- PUMP_MANUAL and PUMP_AUTO set the demand and the mode and evaluate the outputs, or are refused in R171's and R170's order; a PUBLISH
sets the automatic demand and evaluates the outputs when it changed; DEAD_INTERVAL_EXPIRY makes a waiting output ACTIVE once the
other has been off for the dead interval, stops the quiet filter and wakes a QUIET station; the effective demand and the five rows
of the output table (R119, R121, R169 to R173).
The mode before the store is LOADED is log 13. That an output made ACTIVE and then stopped by a command of the very moment its dead
interval ran out keeps its off time, and quiet operation stands as before, is read from R173 (log 45). -/
def Obligations.PumpDemandsAndOutputs : Prop :=
  (∀ (dt : Nat) (q : Byte) (s u : State), admits 24 s → u = asTaken dt s →
    let refused := fun d r => ∃ t, exec (.pumpManual dt q d) s = .next t ∧ responded ⟨24, q, r, .empty⟩ u t
    (∀ d, u.role ≠ .tank → refused d .role) ∧
    (u.role = .tank → refused none .range) ∧
    (∀ d, u.role = .tank → d ≠ .none → u.sensor.port = .lost → refused (some d) .state) ∧
    (∀ d, u.role = .tank → d ≠ .none → u.sensor.port ≠ .lost → levelLimit u d = true →
      refused (some d) .limit) ∧
    (∀ d, u.role = .tank → d = .none ∨ (u.sensor.port ≠ .lost ∧ levelLimit u d = false) →
      ∃ t, exec (.pumpManual dt q (some d)) s = .next t ∧
        t.pump = outputsFor u.now (deadInterval u) { u.pump with manualDemand := d } ∧
        t.panel = ⟨none, u.panel.out ++ [⟨24, q, .accepted, .empty⟩]⟩ ∧
        onlyChanges [.station, .pump, .panel] u t)) ∧
  (∀ (dt : Nat) (q : Byte) (s u : State), admits 25 s → u = asTaken dt s →
    let refused := fun d r => ∃ t, exec (.pumpAuto dt q d) s = .next t ∧ responded ⟨25, q, r, .empty⟩ u t
    let becomes := fun m p => ∃ t, exec (.pumpAuto dt q (some m)) s = .next t ∧ t.pump = p ∧
      t.panel = ⟨none, u.panel.out ++ [⟨25, q, .accepted, .empty⟩]⟩ ∧ onlyChanges [.station, .pump, .panel] u t
    (∀ d, u.role ≠ .tank → refused d .role) ∧ (u.role = .tank → refused none .range) ∧
    (u.role = .tank → becomes u.pump.auto u.pump ∧
      (u.pump.auto = false → becomes true { u.pump with auto := true }) ∧
      (u.pump.auto = true → becomes false
        (outputsFor u.now (deadInterval u) { u.pump with auto := false, autoDemand := .none })))) ∧
  (∀ (dt : Nat) (s u : State) (w : Snapshot) (c : CondBody) (d : Demand), u = elapse dt s → working u = true →
    u.role = .tank → u.solver.pass = some w → 0 < u.pumpData.startBand →
    (actualRecord (passInput w u) (nextPassNumber u.solver.passNumber)).body = some c →
    d = autoDemandAfter u (c.solved.bind (·.heel)) →
    let from_ := u.pump.autoDemand
    let acts := (u.station.state = .run ∨ u.station.state = .quiet) ∧ u.pump.auto = true ∧ u.pump.suspended = false
    let above := fun id => ∃ k l, tankLevel u id = some (k, l) ∧ k.minLevel < l
    let below := fun id => ∃ k l, tankLevel u id = some (k, l) ∧ l < k.maxLevel
    (∃ t, exec (.publish dt) s = .next t ∧ t.pump = (if d = from_ then u.pump
      else outputsFor u.now (deadInterval u) { u.pump with autoDemand := d })) ∧
    (¬ acts → d = .none) ∧ ((∀ v, c.solved = some v → v.heel = none) → d = .none) ∧
    (∀ v h, acts → c.solved = some v → v.heel = some h →
      let stops := h.natAbs ≤ u.pumpData.stopBand ∨ (from_ = .sp ∧ h < 0) ∨ (from_ = .ps ∧ 0 < h)
      let startsSp := u.pumpData.startBand ≤ h ∧ above u.pumpData.stbdTank ∧ below u.pumpData.portTank
      let startsPs := h ≤ -u.pumpData.startBand ∧ above u.pumpData.portTank ∧ below u.pumpData.stbdTank
      (from_ ≠ .none → ¬ stops → d = from_) ∧
      (from_ = .none ∨ stops → (startsSp → d = .sp) ∧ (startsPs → d = .ps) ∧ (¬ startsSp → ¬ startsPs → d = .none)))) ∧
  (∀ (dt : Nat) (s u : State), u = elapse dt s → working u = true → u.role = .tank →
    let becomes := fun p => ∃ t, exec (.deadIntervalExpiry dt) s = .next t ∧ t.pump = p ∧
      (u.station.state = .run → t.station.state = .run ∧ t.station.quietStart = none) ∧
      (u.station.state ≠ .quiet → t.link = u.link ∧ t.report = u.report) ∧
      (u.station.state = .quiet → .wake ∈ t.report.latched ∧ t.link.placeholder = true ∧
        t.station = { u.station with
          state := .run, since := u.now, quietStart := none, quietBefore := t.station.quietBefore }) ∧
      onlyChanges [.station, .pump, .link, .report] u t
    (u.pump.ps = .waiting → u.pump.sp = .inactive → effectiveDemand u.pump = .ps →
      let due := u.pump.offSp + deadInterval u
      (u.now < due → exec (.deadIntervalExpiry dt) s = .next u) ∧
      (due ≤ u.now → becomes { u.pump with ps := .active, duePs := some due, dueSp := none })) ∧
    (u.pump.sp = .waiting → u.pump.ps = .inactive → effectiveDemand u.pump = .sp →
      let due := u.pump.offPs + deadInterval u
      (u.now < due → exec (.deadIntervalExpiry dt) s = .next u) ∧
      (due ≤ u.now → becomes { u.pump with sp := .active, dueSp := some due, duePs := none }))) ∧
  (∀ (dt : Nat) (bytes : List Byte) (ls : List Int) (s u t : State), u = elapse dt s → working u = true →
    takesInputs u = true → u.role = .tank → u.claim.state = .none → (u.station.state = .run → u.station.quietStart ≠ none) →
    exec (.deadIntervalExpiry dt) s = .next t → levelsOf u.ownTanks.length bytes = some ls →
    let w := u.setPump { u.pump with levels := some ((u.ownTanks.zip ls).map (fun q => clamp 0 q.1.2.height q.2)) }
    let cause := ∃ f, u.link.shareRef = some f ∧ ∃ q ∈ (tanksHeld w).zip f.tanks,
      u.pumpData.tankThreshold < (q.1.mass - q.2).natAbs
    let asBefore := fun (v : State) => v.station = { u.station with quietBefore := none } ∧
      (.wake ∈ v.report.latched ↔ .wake ∈ u.report.latched) ∧ (cause → v.link.placeholder = true) ∧
      (¬ cause → v.link.placeholder = u.link.placeholder)
    (u.pump.ps = .waiting → u.pump.sp = .inactive → effectiveDemand u.pump = .ps → u.pump.offSp + deadInterval u = u.now →
      levelLimit w .ps = true →
      ∃ v, exec (.levelsRecord 0 bytes) t = .next v ∧ v.pump.ps = .inactive ∧ v.pump.offPs = u.pump.offPs ∧
        (v.pump.sp ≠ .active → asBefore v)) ∧
    (u.pump.sp = .waiting → u.pump.ps = .inactive → effectiveDemand u.pump = .sp → u.pump.offPs + deadInterval u = u.now →
      levelLimit w .sp = true →
      ∃ v, exec (.levelsRecord 0 bytes) t = .next v ∧ v.pump.sp = .inactive ∧ v.pump.offSp = u.pump.offSp ∧
        (v.pump.ps ≠ .active → asBefore v))) ∧
  (∀ (p r : Pump) (now dead : Nat), r = outputsFor now dead p →
    let d := effectiveDemand p
    let stopped := fun (o : OutState) (off : Nat) (due : Option Nat) =>
      if o = .active ∧ due ≠ some now then now else off
    d = (if p.auto = true ∧ p.autoDemand ≠ .none then p.autoDemand else p.manualDemand) ∧
    (d ≠ .ps → r.ps = .inactive ∧ r.offPs = stopped p.ps p.offPs p.duePs) ∧
    (d ≠ .sp → r.sp = .inactive ∧ r.offSp = stopped p.sp p.offSp p.dueSp) ∧
    (d = .ps → r.offPs = p.offPs ∧ (p.ps = .active → r.ps = .active) ∧
      (p.ps ≠ .active → r.offSp + dead ≤ now → r.ps = .active) ∧
      (p.ps ≠ .active → now < r.offSp + dead → r.ps = .waiting)) ∧
    (d = .sp → r.offSp = p.offSp ∧ (p.sp = .active → r.sp = .active) ∧
      (p.sp ≠ .active → r.offPs + dead ≤ now → r.sp = .active) ∧
      (p.sp ≠ .active → now < r.offPs + dead → r.sp = .waiting)) ∧
    r = { p with ps := r.ps, offPs := r.offPs, duePs := r.duePs, sp := r.sp, offSp := r.offSp, dueSp := r.dueSp })

/-! ### The peer view -/

/-- ROLLCALL and SHARE of a station that holds an entry: the ROLLCALL replaces what the peer declares and asks, the SHARE its
contributions and claim, and makes it FRESH; one that holds none gets an entry while fewer than 14 are held, and its SHARE asks for
it, or latches LINK_TX where 32 fixed frames wait. A ROLLCALL of a bad period fails the frame check (R85 to R89, R91, R93, R98, R113,
R117). An unchanged period leaves the entry's state; a changed one moves it on by the new times, with the events of R92.
That a period held absent is changed by any is read from R93 (log 46), a new entry's MISMATCH is log 18, and that a bad period fails
the check also where the view is full log 50. -/
def Obligations.RollcallAndShareSetEntries : Prop :=
  ∀ (dt k : Nat) (bytes : List Byte) (s u : State), u = elapse dt s →
    let answered := fun (b : RollcallBody) => if b.requestFlag = true ∧ working u = true then { u.link with
      answerAt := some (u.link.answerAt.getD (u.now + 20 * u.ownNumber.getD 0)) } else u.link
    (∀ (b : RollcallBody) (own : Option Word32) (status : IdentityStatus), frameTaken ⟨k, .rollcall b⟩ bytes u → own = u.table.identity →
      status = (if own = none then IdentityStatus.unknown
        else if own = some b.identity then .matching else .mismatch) →
      100 ≤ b.period → b.period ≤ 2000 → b.period % 100 = 0 →
      let roll := RollInfo.mk b.role b.identity b.period b.envelopeMass b.envelopePoint b.cause
      (∀ e n, findEntry k u.view.entries = some e →
        n = { e with roll := some roll, identity := status, claim := if b.startFlag then none else e.claim } →
        let quiet := ∃ i, e.share = some i ∧ i.quiet = true
        ∃ t st, exec (.rollcall dt bytes) s = .next t ∧
          viewChange (replaceEntry { n with state := st } u.view.entries) u t ∧
          (e.roll.map (·.period) = some b.period → st = e.state) ∧
          (e.roll.map (·.period) ≠ some b.period → ∀ stale lost, (quiet → stale = 12 ∧ lost = 40) →
            (¬ quiet → stale = 3 ∧ lost = 10) →
            st = if e.state = .lost ∨ e.lastHeard + b.period.toNat * lost ≤ u.now then .lost
              else if e.state = .stale ∨ e.lastHeard + b.period.toNat * stale ≤ u.now then .stale else .fresh) ∧
          (e.state = .fresh → st ≠ .fresh → .peerStale ∈ t.report.latched) ∧
          (e.state ≠ .lost → st = .lost → .peerLost ∈ t.report.latched) ∧
          (status = .mismatch → e.identity ≠ .mismatch → .tableMismatch ∈ t.report.latched) ∧
          t.link = answered b ∧
          onlyChanges [.view, .solver, .report, .link] u t) ∧
      (findEntry k u.view.entries = none → u.view.entries.length < 14 → ∃ t, exec (.rollcall dt bytes) s = .next t ∧
        viewChange (insertEntry ⟨k, some roll, status, none, none, .fresh, u.now⟩ u.view.entries) u t ∧
        t.link = answered b ∧ (status = .mismatch → .tableMismatch ∈ t.report.latched) ∧
        (status ≠ .mismatch → t.report = u.report) ∧ onlyChanges [.view, .solver, .report, .link] u t) ∧
      (findEntry k u.view.entries = none → 14 ≤ u.view.entries.length →
        exec (.rollcall dt bytes) s = .next (u.setLink (answered b)))) ∧
    (∀ (b : RollcallBody), frameTaken ⟨k, .rollcall b⟩ bytes u →
      b.period < 100 ∨ 2000 < b.period ∨ b.period % 100 ≠ 0 → ∃ t, exec (.rollcall dt bytes) s = .next t ∧
        t.view = { u.view with failureAt := some u.now, windowOpen := true, clean := cleanNow t } ∧
        t.report.latched = insertKind .frameCheck u.report.latched ∧ t.report.mask = u.report.mask ∧
        t.solver.dirty = (u.solver.dirty || decide (t.view.clean ≠ u.view.clean)) ∧
        onlyChanges [.view, .solver, .report] u t) ∧
    (∀ (b : ShareBody), frameTaken ⟨k, .share b⟩ bytes u →
      let share := ShareInfo.mk b.listen b.quiet b.clean b.base b.hook b.planned
      (∀ e, findEntry k u.view.entries = some e → ∃ t, exec (.share dt bytes) s = .next t ∧
        viewChange (replaceEntry { e with
          share := some share, claim := b.claim, state := .fresh, lastHeard := u.now } u.view.entries) u t ∧
        t.report = (if e.state = .lost then (latch .peerBack u).report else u.report) ∧
        onlyChanges [.view, .solver, .report] u t) ∧
      (findEntry k u.view.entries = none → u.view.entries.length < 14 → ∃ t, exec (.share dt bytes) s = .next t ∧
        viewChange (insertEntry ⟨k, none, .unknown, some share, b.claim, .fresh, u.now⟩ u.view.entries) u t ∧
        (working u = false → t.link = u.link) ∧
        (working u = true → u.link.queue.any isRollcall = false → u.link.queue.length < 32 →
          t.link = { u.link with queue := u.link.queue ++ [.rollcall true] }) ∧
        (working u = true → u.link.queue.any isRollcall = false → 32 ≤ u.link.queue.length →
          t.link = u.link ∧ .linkTx ∈ t.report.latched) ∧
        (working u = true → u.link.queue.any isRollcall = true →
          t.link = { u.link with queue := u.link.queue.map (mergeRequest true) }) ∧
        onlyChanges [.view, .solver, .link, .report] u t) ∧
      (findEntry k u.view.entries = none → 14 ≤ u.view.entries.length → exec (.share dt bytes) s = .next u))

/-- CLAIM sets the entry's claim as ANNOUNCED; YIELD and DONE remove one of the same number, 0 none; from a station without an entry
none of them changes the view. A DONE is offered to the journal through its filter, from any station, but not in FAULT (R90, R108,
R140, R142, R183).
How a retained write stands until it is complete is log 9. -/
def Obligations.ClaimYieldAndDoneFrames : Prop :=
  ∀ (dt k : Nat) (bytes : List Byte) (o : Option PeerEntry) (s u : State), u = elapse dt s →
    findEntry k u.view.entries = o →
    let holds := fun (n : Nat) => n ≠ 0 ∧ ∃ e c, o = some e ∧ e.claim = some c ∧ c.number = n
    let removed := fun (t : State) => ∀ e, o = some e →
      viewChange (replaceEntry { e with claim := none } u.view.entries) u t
    (∀ c, frameTaken ⟨k, .claim c⟩ bytes u → (o = none → exec (.claim dt bytes) s = .next u) ∧
      ∀ e, o = some e → ∃ t, exec (.claim dt bytes) s = .next t ∧
        viewChange (replaceEntry { e with claim := some { c with phase := some .announced } } u.view.entries) u t ∧
        onlyChanges [.view, .solver] u t) ∧
    (∀ n, frameTaken ⟨k, .yield n⟩ bytes u →
      (holds n → ∃ t, exec (.yield dt bytes) s = .next t ∧ removed t ∧ onlyChanges [.view, .solver] u t) ∧
      (¬ holds n → exec (.yield dt bytes) s = .next u)) ∧
    (∀ b, frameTaken ⟨k, .done b⟩ bytes u → working u = false →
      (holds b.claim → ∃ t, exec (.done dt bytes) s = .next t ∧ removed t ∧ onlyChanges [.view, .solver] u t) ∧
      (¬ holds b.claim → exec (.done dt bytes) s = .next u)) ∧
    (∀ b r, frameTaken ⟨k, .done b⟩ bytes u → working u = true →
      r = JournalRecord.mk k b.claim b.item b.label b.ending b.mass b.position b.comp b.cls (roundDiv u.now 1000) →
      let passes := (∀ f ∈ u.sec.filter, f = ⟨0, 0⟩) ∨ ∃ f ∈ u.sec.filter, f ≠ ⟨0, 0⟩ ∧
        (f.station = 0 ∨ f.station = k) ∧ (f.cls = 0 ∨ f.cls = (b.cls.getD 0 : Nat))
      ∃ t, exec (.done dt bytes) s = .next t ∧ (holds b.claim → removed t) ∧
        (¬ holds b.claim → t.view = u.view ∧ t.solver = u.solver) ∧
        (passes → journalRoom u = true →
          t.journal = setWriteBank u.journal (writeBank u.journal ++ [r]) ∧
          t.memory.writing = some ⟨⟨u.stowage.items, t.journal⟩, none⟩) ∧
        (passes → journalRoom u = false → t.journal = u.journal ∧ .journalFull ∈ t.report.latched) ∧
        (¬ passes → t.journal = u.journal ∧ t.memory = u.memory ∧ t.report = u.report) ∧
        onlyChanges [.view, .solver, .journal, .memory, .panel, .report] u t)

/-- A frame that fails its check, or that the line cuts short, latches FRAME_CHECK and opens the window; a fragment, an invalid panel
record and a panel fragment change nothing; a frame of the own number takes the station to HALT (R96, R98, R106, R107, R186,
R192).
The order of the effects of HALT is log 34, and that the lines are filtered on beneath their frozen readout log 19. -/
def Obligations.FailedAndForeignFrames : Prop :=
  ∀ (dt : Nat) (bytes : List Byte) (s u : State), u = elapse dt s →
    let failed := fun (c : Instr) => ∃ t, exec c s = .next t ∧
      t.view = { u.view with failureAt := some u.now, windowOpen := true, clean := cleanNow t } ∧
      t.report.latched = insertKind .frameCheck u.report.latched ∧ t.report.mask = u.report.mask ∧
      onlyChanges [.view, .solver, .report] u t
    (receiving u = true → frameOf bytes = none → failed (.frameCheckFail dt bytes)) ∧
    (receiving u = true → cutShort bytes = true → failed (.lineIdleTimeout dt bytes)) ∧
    exec (.fragmentReceived dt bytes) s = .next u ∧ exec (.panelRecordInvalid dt bytes) s = .next u ∧
    exec (.panelFragmentTimeout dt bytes) s = .next u ∧
    (∀ f c, receiving u = true → frameOf bytes = some f → u.ownNumber = some f.source →
      c ∈ [.rollcall dt bytes, .share dt bytes, .claim dt bytes, .yield dt bytes, .done dt bytes, .tag dt bytes] →
      ∃ t, exec c s = .next t ∧ t.station = { u.station with
          state := .halt, since := u.now, quietStart := none, frozenAt := some u.now } ∧
        .duplicateStation ∈ t.report.latched ∧ t.link.queue = [] ∧ t.link.placeholder = false ∧ t.link.tx = none ∧
        t.solver.pass = none ∧ (u.claim.state ≠ .none → t.solver.dirty = true) ∧ t.claim.state = .none ∧ t.claim.record = none ∧ t.pump.ps = .inactive ∧
        t.pump.sp = .inactive ∧ t.pump.autoDemand = .none ∧ t.pump.manualDemand = .none ∧
        t.crane.permits = .inactive ∧ safeState t = true ∧ t.panel.inProgress = none ∧
        t.lines = { u.lines with frozen := some u.lines.inputs } ∧
        (∀ p, u.panel.inProgress = some p → t.panel.out = u.panel.out ++ [⟨p.code, p.seq, .state, .empty⟩]) ∧
        onlyChanges [.station, .report, .link, .solver, .claim, .crane, .pump, .view, .memory, .panel, .lines] u t)

/-- PEER_STALE and PEER_LOST follow the last-heard time by 3 and 10 periods, 12 and 40 for a quiet peer; the frame-check window
closes after 10 own periods, and the agreement changes after 10 s of its filter, which a comparison starts, keeps or stops (R92,
R93, R98, R100, R101).
That PEER_LOST on a FRESH entry does both is log 26; the own period in FAULT is R92's. -/
def Obligations.ViewTimers : Prop :=
  ∀ (dt k : Nat) (s u : State), u = elapse dt s → viewing u = true →
    (∀ e p, findEntry k u.view.entries = some e → p = (match e.roll with
        | some r => r.period.toNat
        | none => u.period) →
      let quiet := ∃ i, e.share = some i ∧ i.quiet = true
      (∀ m, e.state = .fresh → (quiet → m = 12) → (¬ quiet → m = 3) →
        (u.now < e.lastHeard + p * m → exec (.peerStale dt k) s = .next u) ∧
        (e.lastHeard + p * m ≤ u.now → ∃ t, exec (.peerStale dt k) s = .next t ∧
          viewChange (replaceEntry { e with state := .stale } u.view.entries) u t ∧
          .peerStale ∈ t.report.latched ∧ onlyChanges [.view, .solver, .report] u t)) ∧
      (∀ m, e.state ≠ .lost → (quiet → m = 40) → (¬ quiet → m = 10) →
        (u.now < e.lastHeard + p * m → exec (.peerLost dt k) s = .next u) ∧
        (e.lastHeard + p * m ≤ u.now → ∃ t, exec (.peerLost dt k) s = .next t ∧
          viewChange (replaceEntry { e with state := .lost } u.view.entries) u t ∧
          .peerLost ∈ t.report.latched ∧ (e.state = .fresh → .peerStale ∈ t.report.latched) ∧
          onlyChanges [.view, .solver, .report] u t))) ∧
    (∀ a, u.view.windowOpen = true → u.view.failureAt = some a →
      (u.now < a + 10 * u.period → exec (.frameCheckWindowClose dt) s = .next u) ∧
      (a + 10 * u.period ≤ u.now → ∃ t, exec (.frameCheckWindowClose dt) s = .next t ∧
        t.view = { u.view with windowOpen := false, clean := cleanNow t } ∧
        onlyChanges [.view, .solver] u t)) ∧
    (∀ a, u.inclinometer = true → working u = true → u.view.heelFilter = some a →
      (u.now < a + 10000 → exec (.heelFilterExpiry dt) s = .next u) ∧
      (a + 10000 ≤ u.now → ∃ t, exec (.heelFilterExpiry dt) s = .next t ∧
        t.view = { u.view with agreement := !u.view.agreement, heelFilter := none, clean := cleanNow t } ∧
        (u.view.agreement = true → .heelMismatch ∈ t.report.latched) ∧
        onlyChanges [.view, .solver, .report] u t)) ∧
    (∀ w : State,
      let heel := w.solver.actual.body.bind (fun b => b.solved.bind (·.heel))
      let filter := fun f => compareHeel w = w.setView { w.view with heelFilter := f }
      (w.inclinometer = false ∨ working w = false → compareHeel w = w) ∧
      (w.inclinometer = true → working w = true →
        (w.crane.heel = none ∨ heel = none → filter none) ∧
        (∀ m h tol : Int, w.crane.heel = some m → heel = some h → w.craneData.heelTolerance = some tol →
          let disagree := tol < (m - h).natAbs
          ((w.view.agreement = true ↔ disagree) → filter (some (w.view.heelFilter.getD w.now))) ∧
          (¬ (w.view.agreement = true ↔ disagree) → filter none))))

/-! ### Sending on the deck link -/

/-- TX_ATTEMPT_START sends the fixed frame at the head, or behind them a SHARE formed now, with its flags, base, planned delta, hook
and claim part and the reference values they give; a collided attempt waits a random delay of
0 to 4a ms, and the 16th drops the frame with LINK_TX latched; TX_COMPLETE sends it. No attempt starts while one is on the line or
its delay runs, or while nothing waits that may start (R106, R109, R110, R113 to R116, R123; the delay is log 10's).
That the 50 ms let a SHARE start before SHARE_SPACING_EXPIRY, and a delay its next attempt before TX_BACKOFF_EXPIRY, is log 38, the write completed first log 9, and that the port's
timeouts and the heel filter's count in its clean flag log 32. -/
def Obligations.TransmitAttempts : Prop :=
  ∀ (dt : Nat) (s u : State), u = elapse dt s → working u = true → takesInputs u = true →
    (∀ f rest, u.link.tx = none → u.link.queue = f :: rest → ∃ t b, exec (.txAttemptStart dt) s = .next t ∧
      b = (match f with
        | .rollcall r => FrameBody.rollcall ⟨u.role, u.table.identity.getD 0#32, u.station.cause, u.link.startFlag, r,
            u.period, u.sec.envelopeMass, u.sec.envelopePoint⟩
        | .claim c => .claim c
        | .yield n => .yield n
        | .done d => .done d
        | .tag g => .tag g) ∧
      t.link = { u.link with queue := rest, tx := some ⟨⟨u.ownNumber.getD 0, b⟩, 1, .sending⟩ } ∧
      onlyChanges [.link, .memory, .panel] u t) ∧
    (u.link.tx = none → u.link.queue = [] → u.link.placeholder = true →
      u.link.spacing = false ∨ (∃ a, u.link.shareStart = some a ∧ a + 50 ≤ u.now) →
      let counted := fun (cs : List CompTerm) => cs.map (fun c => termAt u.sectionXs c.mass c.point 0)
      let items := u.stowage.items
      ∃ t b, exec (.txAttemptStart dt) s = .next t ∧ t.link = { u.link with
          placeholder := false, wakeCause := false, shareStart := some u.now, spacing := true
          shareRef := some ⟨hookHeld u, (tanksHeld u).map (·.mass)⟩
          tx := some ⟨⟨u.ownNumber.getD 0, .share b⟩, 1, .sending⟩ } ∧
        b.quiet = decide (u.station.state = .quiet) ∧ b.listen = decide (u.station.state = .listen) ∧
        b.clean = (partsShown u).all id ∧
        isSum u.sectionXs (if u.role = .tank then (tanksHeld u).map (fun k => termAt u.sectionXs k.mass k.point k.fsm)
          else counted (items.filterMap baseTerm)) b.base ∧
        isSum u.sectionXs (if u.role = .tank then [] else counted (items.filterMap deltaTerm)) b.planned ∧
        b.hook = hookHeld u ∧
        b.claim = (if u.claim.state = .announced ∨ u.claim.state = .committed then recordMarked u else none) ∧
        onlyChanges [.link, .memory, .panel] u t) ∧
    (u.link.tx = none → u.link.queue = [] →
      u.link.placeholder = false ∨ (u.link.spacing = true ∧ ∀ a, u.link.shareStart = some a → u.now < a + 50) →
      exec (.txAttemptStart dt) s = .next (completeWrite u)) ∧
    (∀ f a, u.link.tx = some ⟨f, a, .sending⟩ → exec (.txAttemptStart dt) s = .next (completeWrite u)) ∧
    (∀ f a x, u.link.tx = some ⟨f, a, .backoff x⟩ →
      (u.now < x → exec (.txAttemptStart dt) s = .next (completeWrite u)) ∧
      (x ≤ u.now → exec (.txAttemptStart dt) s = .next ((completeWrite u).setLink { u.link with
        tx := some ⟨f, a + 1, .sending⟩ }))) ∧
    (∀ f a, u.link.tx = some ⟨f, a, .ready⟩ → ∃ t, exec (.txAttemptStart dt) s = .next t ∧
      t.link = { u.link with tx := some ⟨f, a + 1, .sending⟩ } ∧ onlyChanges [.link, .memory, .panel] u t) ∧
    (∀ f a, u.link.tx = some ⟨f, a, .sending⟩ → a < 16 → ∃ d, d ≤ 4 * a ∧
      exec (.txCollision dt) s = .next (u.setLink { u.link with
        tx := some ⟨f, a, .backoff (u.now + d)⟩, draws := u.link.draws + 1 })) ∧
    (∀ f a, u.link.tx = some ⟨f, a, .sending⟩ → 16 ≤ a → ∃ t, exec (.txCollision dt) s = .next t ∧
      t.link = { u.link with
        tx := none, placeholder := u.link.placeholder || decide (kindCode f.body = 2)
        wakeCause := u.link.wakeCause && !decide (kindCode f.body = 2) } ∧
      t.report.latched = insertKind .linkTx u.report.latched ∧ onlyChanges [.link, .report] u t) ∧
    (∀ f a x, u.link.tx = some ⟨f, a, .backoff x⟩ →
      (u.now < x → exec (.txBackoffExpiry dt) s = .next u) ∧
      (x ≤ u.now → exec (.txBackoffExpiry dt) s =
        .next (u.setLink { u.link with tx := some ⟨f, a, .ready⟩ }))) ∧
    (∀ f a, u.link.tx = some ⟨f, a, .sending⟩ → exec (.txComplete dt) s = .next (u.setLink { u.link with
      tx := none, out := u.link.out ++ [encodeFrame f]
      startFlag := u.link.startFlag && (match f.body with
        | .rollcall b => !b.startFlag
        | _ => true) }))

/-- The schedule: a SHARE falls due one interval after the latest, four times as long in QUIET; the spacing ends after 50 ms; a
ROLLCALL answers at its time, or latches LINK_TX where 32 fixed frames wait; the rotation tags the next classed item each interval, from the end of the list on to its start, goes on
from the place of an item that has gone, tags nothing where no item is classed, and skips its turn while a fixed frame waits
(R113, R114, R116 to R118).
The write completed before a rotation is log 9. -/
def Obligations.TransmitSchedule : Prop :=
  ∀ (dt : Nat) (s u : State), u = elapse dt s → working u = true →
    let interval := if u.station.state = .quiet then 4 * u.period else u.period
    (∀ a, u.link.shareStart = some a →
      (u.now < a + interval → exec (.shareIntervalExpiry dt) s = .next u) ∧
      (a + interval ≤ u.now → exec (.shareIntervalExpiry dt) s =
        .next (u.setLink { u.link with placeholder := true, wakeCause := false })) ∧
      (u.link.spacing = true → u.now < a + 50 → exec (.shareSpacingExpiry dt) s = .next u) ∧
      (u.link.spacing = true → a + 50 ≤ u.now → exec (.shareSpacingExpiry dt) s =
        .next (u.setLink { u.link with spacing := false }))) ∧
    (∀ a, u.link.answerAt = some a →
      (u.now < a → exec (.rollcallAnswerDue dt) s = .next u) ∧
      (a ≤ u.now → u.link.queue.any isRollcall = false → u.link.queue.length < 32 →
        exec (.rollcallAnswerDue dt) s = .next (u.setLink { u.link with
          answerAt := none, queue := u.link.queue ++ [.rollcall false] })) ∧
      (a ≤ u.now → u.link.queue.any isRollcall = false → 32 ≤ u.link.queue.length →
        ∃ t, exec (.rollcallAnswerDue dt) s = .next t ∧ t.link = { u.link with answerAt := none } ∧
          .linkTx ∈ t.report.latched ∧ onlyChanges [.link, .report] u t) ∧
      (a ≤ u.now → u.link.queue.any isRollcall = true → exec (.rollcallAnswerDue dt) s =
        .next (u.setLink { u.link with answerAt := none, queue := u.link.queue.map (mergeRequest false) }))) ∧
    (∀ a, u.link.rotationAt = some a →
      (u.now < a + interval → exec (.tagRotation dt) s = .next u) ∧
      (a + interval ≤ u.now → u.link.queue ≠ [] → ∃ t, exec (.tagRotation dt) s = .next t ∧
        t.link = { u.link with rotationAt := some (a + interval) } ∧ onlyChanges [.link, .memory, .panel] u t) ∧
      (a + interval ≤ u.now → u.link.queue = [] → (∀ i ∈ u.stowage.items, i.cls = none) →
        ∃ t, exec (.tagRotation dt) s = .next t ∧ t.link = { u.link with rotationAt := some (a + interval) } ∧
          onlyChanges [.link, .memory, .panel] u t) ∧
      (a + interval ≤ u.now → u.link.queue = [] → ∀ k i c b, u.stowage.items[k]? = some i → i.cls = some c →
        (∀ m j, turnBefore (rotationFrom u.link.rotation) m k → u.stowage.items[m]? = some j → j.cls = none) →
        b = ⟨i.number, c, true, (tagPoint i).x, (tagPoint i).y, i.comp⟩ →
        ∃ t, exec (.tagRotation dt) s = .next t ∧ t.link = { u.link with
            rotationAt := some (a + interval), queue := [.tag b], rotation := some ⟨k, false⟩
            tagged := u.link.tagged.filter (fun g => decide (g.item ≠ i.number)) ++ [b] } ∧
          onlyChanges [.link, .memory, .panel] u t)) ∧
    (∀ place j : Nat, rotationFrom none = 0 ∧ rotationFrom (some ⟨place, false⟩) = place + 1 ∧
      rotationFrom (some ⟨place, true⟩) = place ∧
      (∀ gone, j < place → pointerAfterRemoval j ⟨place, gone⟩ = ⟨place - 1, gone⟩) ∧
      pointerAfterRemoval place ⟨place, false⟩ = ⟨place, true⟩ ∧
      pointerAfterRemoval place ⟨place, true⟩ = ⟨place, true⟩ ∧
      (∀ gone, place < j → pointerAfterRemoval j ⟨place, gone⟩ = ⟨place, gone⟩))

/-! ### The condition solver -/

/-- PASS_START and SOLVER_INTERVAL_EXPIRY take a snapshot of every input as of the own timer and clear the dirty mark; PUBLISH
replaces the records of the pass together, hands them to their consumers, the claim unit among them, and begins the next pass where
250 ms have passed since the last began (R56, R57, R59, R83, R84, R154, R180).
That timeouts and the heel filter that have passed count in a snapshot is log 32, the next pass begun in PUBLISH log 24, the write completed first log 9. -/
def Obligations.PassAndPublish : Prop :=
  ∀ (dt : Nat) (s u : State), u = elapse dt s → working u = true →
    let snapshot := fun (v : State) => Snapshot.mk v.now v.stowage.items v.trial (hookHeld v)
      (if v.role = .tank then tanksHeld v else []) (v.view.entries.map (fun e => { e with state := peerStateShown v e }))
      v.claim.state (if v.claim.state = .none then none else v.claim.record.map (·.number))
      (if v.claim.state = .none ∨ v.claim.state = .backoff then none else recordMarked v) ((partsShown v).all id)
    let begun := fun (c : Instr) => ∃ t, exec c s = .next t ∧
      t.solver = { u.solver with pass := some (snapshot u), dirty := false, lastStart := some u.now } ∧
      onlyChanges [.solver, .memory, .panel] u t
    (u.solver.pass = none → u.solver.dirty = true → begun (.passStart dt)) ∧
    (∀ a, u.solver.pass = none → u.solver.lastStart = some a →
      (a + 250 ≤ u.now → begun (.solverIntervalExpiry dt)) ∧
      (u.now < a + 250 → exec (.solverIntervalExpiry dt) s = .next u)) ∧
    (∀ w p n, u.solver.pass = some w → p = passInput w u →
      n = (if 4294967295 ≤ u.solver.passNumber then 1 else u.solver.passNumber + 1) →
      ∃ t, exec (.publish dt) s = .next t ∧ t.memory = (completeWrite u).memory ∧
        (completeWrite u).panel.out <+: t.panel.out ∧ t.view = (compareHeel (u.setSolver t.solver)).view ∧
        ((∃ a, u.solver.lastStart = some a ∧ a + 250 ≤ u.now) → t.solver.pass = some (snapshot t) ∧
          t.solver.dirty = false ∧ t.solver.lastStart = some u.now) ∧
        ((∀ a, u.solver.lastStart = some a → u.now < a + 250) → t.solver.pass = none ∧
          (u.solver.dirty = true → t.solver.dirty = true) ∧ t.solver.lastStart = u.solver.lastStart) ∧
        t.solver.passNumber = n ∧
        t.claim = (claimArrival ((probeRecord p n).bind (·.body)) (liftRecord p n).body (completeWrite u)).claim ∧
        t.solver.actual = actualRecord p n ∧ t.solver.lift = liftRecord p n ∧ t.solver.final = finalRecord p n ∧
        t.solver.probe = (probeRecord p n).getD u.solver.probe ∧
        t.solver.prevActual = (actualRecord p n).verdict ∧ t.solver.prevLift = (liftRecord p n).verdict ∧
        t.report.actual = (actualRecord p n).verdict ∧ t.report.lift = (liftRecord p n).verdict ∧
        t.report.alarm = alarmHolds t.report ∧ (u.role = .crane → t.crane.verdict = (liftRecord p n).verdict) ∧
        (u.role = .crane → t.crane.permits = permitsOf t) ∧
        ((liftRecord p n).verdict = .red → u.solver.prevLift ≠ .red → .limitRed ∈ t.report.latched) ∧
        ((actualRecord p n).verdict = .red → u.solver.prevActual ≠ .red → .limitRed ∈ t.report.latched) ∧
        ((liftRecord p n).verdict = .amber → u.solver.prevLift ≠ .amber → .limitAmber ∈ t.report.latched) ∧
        ((actualRecord p n).verdict = .amber → u.solver.prevActual ≠ .amber → .limitAmber ∈ t.report.latched) ∧
        onlyChanges [.solver, .report, .view, .claim, .crane, .station, .link, .pump, .memory, .panel] u t)

/-- Every division rounds to the nearest integer, and a quotient exactly halfway away from zero: no integer is nearer, and of two that
are as near it is the one farther from zero (R1). The table range stage: a displacement outside the table gives no row; one inside
gives the row that holds it, a row's own displacement that row, and the last one the last pair (R70, R81). -/
def Obligations.QuotientsRoundAndRowsAreSelected : Prop :=
  (∀ n d : Int, d ≠ 0 → 2 * (n - d * roundDiv n d).natAbs ≤ d.natAbs) ∧
  (∀ n d q : Int, d ≠ 0 → 2 * (n - d * q).natAbs = d.natAbs → q.natAbs ≤ (roundDiv n d).natAbs) ∧
  roundDiv 33 2 = 17 ∧ roundDiv (-33) 2 = -17 ∧
  (∀ (rows : List HullRow) (delta : Int), 2 ≤ rows.length → (rows.map (·.d)).Pairwise (· < ·) →
      (∀ f l, rows.head? = some f → rows.getLast? = some l →
        (delta < f.d ∨ l.d < delta → selectRows rows delta = none) ∧
        (delta = l.d → (selectRows rows delta).map (·.1) = some (rows.length - 2))) ∧
      (∀ i a b, rows[i]? = some a → rows[i + 1]? = some b → a.d ≤ delta → delta < b.d →
        selectRows rows delta = some (i, a, b)))

/-- The sums of ACTUAL, LIFT, the probe and FINAL are the sums of the terms R64, R66 and R67 list: own items by their state or own
tanks, peers' held contributions, hooks, planned deltas, and trial entries from the bottom of the stack up (R40, R52, R61 to R64, R66 to R69).
A peer's aft sums beyond the own sections are not the station's (R110). -/
def Obligations.SumsOfTheSolutions : Prop :=
  (∀ (p : PassInput) (ts : List LiftTerm),
      let xs := p.xs
      let image := p.image
      let items := p.snap.items
      let counted := fun (cs : List CompTerm) => cs.map (fun c => termAt xs c.mass c.point 0)
      let hooks := fun (hs : List HookTerm) => hs.map (fun h => termAt xs h.load h.point 0)
      let lightship : Aggregate := { mass := image.lightship.mass, mx := image.lightship.mass * image.lightship.centre.x
                                     my := image.lightship.mass * image.lightship.centre.y
                                     mz := image.lightship.mass * image.lightship.centre.z, fs := 0
                                     aft := image.lightship.aft }
      let ownBase := if p.role = .tank then p.snap.tanks.map (fun t => termAt xs t.mass t.point t.fsm)
        else counted (items.filterMap baseTerm)
      let bases := lightship :: ownBase ++ p.snap.peers.filterMap (fun e => e.share.map (·.base))
      let peerHooks := fun (es : List PeerEntry) => es.filterMap (fun e => e.share.bind (·.hook))
      let without := fun (n : Nat) => decide (∀ t ∈ ts, t.station ≠ n)
      let taken := ts.filterMap (fun t => t.source.bind (fun c =>
        if c.inBase then some (termAt xs (-c.mass) c.point 0) else none))
      isSum xs (bases ++ hooks (p.snap.hook.toList ++ peerHooks p.snap.peers)) (actualSum p) ∧
      isSum xs (bases ++ ts.map (fun t => termAt xs t.mass t.point 0) ++ taken ++
        hooks ((if without p.number then p.snap.hook.toList else []) ++
          peerHooks (p.snap.peers.filter (fun e => without e.station)))) (liftSum p ts) ∧
      isSum xs (bases ++ counted (items.filterMap deltaTerm) ++
        p.snap.peers.filterMap (fun e => e.share.map (·.planned)) ++ counted (trialTerms items p.snap.trials))
        (finalSum p)) ∧
  (∀ i : Item,
      (i.state = .stowed ∨ i.state = .plannedOut → ∀ v, i.stowed = some v → baseTerm i = some ⟨i.mass, v, i.comp⟩) ∧
      (∀ l, i.state = .landed → i.landing = some l →
        baseTerm i = if l.aboard = true then some ⟨i.mass, l.point, i.comp⟩ else none) ∧
      (i.state = .plannedIn ∨ i.state = .slung ∨ i.state = .unresolved → baseTerm i = none) ∧
      (∀ v, i.state = .plannedOut → i.stowed = some v → deltaTerm i = some ⟨-i.mass, v, i.comp⟩) ∧
      (i.state = .plannedIn → deltaTerm i = some ⟨i.mass, i.planned, i.comp⟩) ∧
      (i.state ≠ .plannedOut → i.state ≠ .plannedIn → deltaTerm i = none)) ∧
  (∀ (items : List Item) (stack : List TrialEntry) (v : Point) (c : Nat),
      trialTerms items [] = [] ∧
      (∀ m l b k, trialTerms items (stack ++ [.add m v c l b k]) = trialTerms items stack ++ [⟨m, v, c⟩]) ∧
      (∀ n, trialTerms items (stack ++ [.move n v c true]) = trialTerms items stack) ∧
      (∀ n i, findItem n items = some i →
        let old := (topMove n stack).getD (i.planned, i.comp)
        trialTerms items (stack ++ [.move n v c false]) =
          trialTerms items stack ++ [⟨-i.mass, old.1, old.2⟩, ⟨i.mass, v, c⟩]))

/-- The claims a LIFT or a probe includes: the own COMMITTED claim, or the own ANNOUNCED one with the candidate in its place in a
probe; each peer's COMMITTED claim; an envelope pseudo-claim for a LOST peer that holds none; and, beside an own announced claim, the
peers' ANNOUNCED claims that outrank it by class, then by lower station number. They are counted by kind (R63, R65, R82). -/
def Obligations.ClaimsALiftIncludes : Prop :=
  (∀ (probe : Bool) (w : Snapshot), ∃ (own : Option LiftTerm) (peer : PeerEntry → Option LiftTerm),
      let announced := w.claimState = .announced ∨ (probe = true ∧ w.claimState = .probing)
      includedClaims probe w = own.toList ++ w.peers.filterMap peer ∧
      (∀ t, own = some t ↔ ∃ c, w.claim = some c ∧
        ((w.claimState = .committed ∧ t = ⟨.ownCommitted, c.station, c.mass, c.worst, c.source⟩) ∨
          (announced ∧ t = ⟨.ownAnnounced, c.station, c.mass, c.worst, c.source⟩))) ∧
      (∀ e t, peer e = some t ↔
        (∃ c, e.claim = some c ∧ c.phase = some .committed ∧
          t = ⟨.peerCommitted, e.station, c.mass, c.worst, c.source⟩) ∨
        (∃ c d, e.claim = some c ∧ c.phase ≠ some .committed ∧ announced ∧ w.claim = some d ∧
          (d.cls < c.cls ∨ (c.cls = d.cls ∧ c.station < d.station)) ∧
          t = ⟨.outranking, e.station, c.mass, c.worst, c.source⟩) ∨
        (∃ r, e.claim = none ∧ e.state = .lost ∧ e.roll = some r ∧
          t = ⟨.pseudo, e.station, r.envelopeMass, r.envelopePoint, none⟩))) ∧
  (∀ ts : List LiftTerm,
      let count := fun k => (ts.map (·.kind)).count k
      includedCounts ts = ⟨count .ownCommitted + count .peerCommitted + count .pseudo, count .peerCommitted,
        count .ownCommitted, count .pseudo, count .outranking⟩)

/-- The values of a solution inside the table: the row properties are interpolated between the two rows; GM is KM less KG and FSC;
the heel comes from MY and is absent at a GM of zero or less, whose heel check is BREACH and verdict RED; trim and end drafts come in
R75's order and the draft checks judge them; every section has its shear force and bending moment, judged or not, and a ship without
sections has neither them nor their checks (R72 to R76). -/
def Obligations.StagesComputeTheValues : Prop :=
  ∀ (p : PassInput) (j : Judging) (t : Aggregate) (i : Nat) (a b : HullRow) (v : SolvedValues),
    selectRows p.image.rows t.mass = some (i, a, b) → solveSum p j t = some v →
    let prop := fun (f : HullRow → Int) => f a + roundDiv ((f b - f a) * (t.mass - a.d)) (b.d - a.d)
    let f := fun k => prop (fun r => (r.pairs.getD k ⟨0, 0⟩).f)
    let arm := fun k => prop (fun r => (r.pairs.getD k ⟨0, 0⟩).a)
    let buoyancy := fun k => roundDiv (t.mass * f k) 65536
    (∀ g : HullRow → Int, min (g a) (g b) ≤ prop g ∧ prop g ≤ max (g a) (g b)) ∧
      v.row = i ∧ v.t = prop (·.t) ∧ v.km = prop (·.km) ∧ v.lcb = prop (·.lcb) ∧ v.lcf = prop (·.lcf) ∧ v.mtm = prop (·.mtm) ∧ v.gm = v.km - roundDiv t.mz t.mass - roundDiv t.fs t.mass ∧
      (0 < v.gm → v.heel = some (max (-999) (min 999 (roundDiv (t.my * 1000) (t.mass * v.gm))))) ∧
      (v.gm ≤ 0 → v.heel = none ∧ (∃ c ∈ v.checks, c.name = .heel ∧ c.value = none ∧ c.outcome = .breach) ∧
        verdictOf v.checks = .red) ∧
      v.trim = roundDiv (t.mass * (v.lcb - roundDiv t.mx t.mass)) v.mtm ∧
      v.ta = v.t + roundDiv (v.trim * v.lcf) p.image.particulars.lpp ∧ v.tf = v.ta - v.trim ∧ v.ta - v.tf = v.trim ∧
      (∃ c ∈ v.checks, c.name = .maxDraftAft ∧ c.value = some v.ta) ∧
      (∃ c ∈ v.checks, c.name = .maxDraftForward ∧ c.value = some v.tf) ∧
      (∃ c ∈ v.checks, c.name = .minDraftAft ∧ c.value = some v.ta) ∧
      (t.aft.length = p.image.sections.length → v.strength.length = p.image.sections.length) ∧
      (∀ k w, t.aft[k]? = some w → k < p.image.sections.length → v.strength[k]? =
        some ⟨w.mass - buoyancy k, roundDiv (w.moment - buoyancy k * arm k) 1000⟩) ∧
      (p.image.sections = [] → v.strength = [] ∧ ∀ c ∈ v.checks, ∀ k, c.name ≠ .shear k ∧ c.name ≠ .bending k)

/-- A check of one value is OK, WARN or BREACH against an upper or a lower limit with its band, which R4 and R7 keep at 0 or more, and
the worse of the two where it has both; N/A is the outcome of a strength check that is not judged (R77). -/
def Obligations.ChecksJudgeAgainstLimits : Prop :=
  ∀ (name : CheckName) (v : Int) (u l : Limit), 0 ≤ u.band → 0 ≤ l.band →
    let upper := fun o => (o = CheckOutcome.ok ∧ v ≤ u.limit - u.band) ∨
      (o = .warn ∧ u.limit - u.band < v ∧ v ≤ u.limit) ∨ (o = .breach ∧ u.limit < v)
    let lower := fun o => (o = CheckOutcome.ok ∧ l.limit + l.band ≤ v) ∨
      (o = .warn ∧ l.limit ≤ v ∧ v < l.limit + l.band) ∨ (o = .breach ∧ v < l.limit)
    upper (checkOf name v none (some u)).outcome ∧ lower (checkOf name v (some l) none).outcome ∧
      (∀ x y, lower x → upper y → (checkOf name v (some l) (some u)).outcome =
        if x = .breach ∨ y = .breach then .breach else if x = .warn ∨ y = .warn then .warn else .ok) ∧
      (checkOf name v (some l) (some u)).value = some v ∧ (checkOf name v (some l) (some u)).lower = some l ∧
      (checkOf name v (some l) (some u)).upper = some u ∧
      (∀ c, judgeStrength true c = c ∧ judgeStrength false c = { c with outcome := .na })

/-- The records of a pass carry its number, its snapshot time and clean view, the centres of their sums, and the checks of R78 in
R82's order against the limits in force, with the verdict those give; a sum outside the table is VOID and carries no check. ACTUAL and
FINAL are judged by the static heel limit, LIFT and the probe by the lift heel limit, all by the degraded limits without a clean view;
the strength checks are N/A while a peer's identity is not MATCH (R60, R68, R71, R78 to R82).
What a LIFT sees of the own claim is log 31. -/
def Obligations.RecordsCheckTheirSolutions : Prop :=
  ∀ (p : PassInput) (n : Nat),
    let q := p.image.particulars
    let judged := p.snap.peers.all (fun e => decide (e.identity = .matching))
    let given := fun (r : CondRecord) (f : Flavour) (counts : Option IncludedCounts) (seen : Option ClaimSeen)
        (terms : List CompTerm) (t : Aggregate) =>
      let lift := f = .lift ∨ f = .probe
      let less := if p.snap.clean = true then 0 else q.degradedHeel
      let heel : Limit := if lift then ⟨q.liftHeel - less, q.liftHeelBand⟩ else ⟨q.staticHeel - less, q.staticHeelBand⟩
      let limits : LimitsInForce := ⟨q.gmMin + (if p.snap.clean = true then 0 else q.degradedGm), heel⟩
      let void := 1 ≤ t.mass → selectRows p.image.rows t.mass = none
      ∃ b, r = ⟨f, some b⟩ ∧ b.passNumber = n ∧ b.snapshotTime = p.snap.time ∧ b.clean = p.snap.clean ∧
        b.strengthJudged = judged ∧ b.included = counts ∧ b.ownSeen = seen ∧ b.delta = t.mass ∧
        b.centres = (if 1 ≤ t.mass then
          some ⟨roundDiv t.mx t.mass, roundDiv t.my t.mass, roundDiv t.mz t.mass, roundDiv t.fs t.mass⟩ else none) ∧
        (void → b.solved = none ∧ b.verdict = .void) ∧
        (¬ void → ∃ v, b.solved = some v ∧ solveSum p ⟨limits, judged, terms⟩ t = some v ∧
          v.checks.map (fun c => (c.name, c.value, c.lower, c.upper)) =
            [(.gm, some v.gm, some ⟨limits.gm, q.gmBand⟩, none),
              (.heel, v.heel.map (fun h => (h.natAbs : Int)), none, some heel),
              (.trim, some v.trim, some ⟨q.trimMin, q.trimBand⟩, some ⟨q.trimMax, q.trimBand⟩),
              (.maxDraftAft, some v.ta, none, some ⟨q.maxDraft, q.maxDraftBand⟩),
              (.maxDraftForward, some v.tf, none, some ⟨q.maxDraft, q.maxDraftBand⟩),
              (.minDraftAft, some v.ta, some ⟨q.minAftDraft, q.minAftBand⟩, none)] ++
            ((p.image.sections.zip v.strength).zipIdx 1).map (fun w => (.shear w.2, some (w.1.2.sf.natAbs : Int), none,
              some ⟨w.1.1.sfLimit, w.1.1.sfBand⟩)) ++
            ((p.image.sections.zip v.strength).zipIdx 1).map (fun w => (.bending w.2, some w.1.2.bm,
              some ⟨-w.1.1.sagLimit, w.1.1.sagBand⟩, some ⟨w.1.1.hogLimit, w.1.1.hogBand⟩)) ++
            (p.owned.filter (fun o => !isTank o.2)).map (fun o => (.compartment o.1,
              some ((terms.filter (fun c => decide (c.comp = o.1))).map (·.mass)).sum, none, some ⟨o.2.maxMass, 0⟩)) ∧
          (∀ c ∈ v.checks, c.outcome =
            match judged, c.name, c.value with
            | false, .shear _, _ | false, .bending _, _ => .na
            | _, _, none => .breach
            | _, _, some x => (checkOf c.name x c.lower c.upper).outcome) ∧
          ((∃ c ∈ v.checks, c.outcome = .breach) → b.verdict = .red) ∧
          ((∀ c ∈ v.checks, c.outcome ≠ .breach) → (∃ c ∈ v.checks, c.outcome = .warn ∨ c.outcome = .na) →
            b.verdict = .amber) ∧
          ((∀ c ∈ v.checks, c.outcome = .ok) → b.verdict = .green))
    let items := p.snap.items
    let left := fun (ts : List LiftTerm) => items.filter (fun i => !ts.any (fun t =>
      decide (t.kind = .ownCommitted ∨ t.kind = .ownAnnounced) && t.source.any (·.inBase) &&
        p.snap.claim.any (fun c => decide (c.item = i.number))))
    let lifted := includedClaims false p.snap
    let probed := includedClaims true p.snap
    given (actualRecord p n) .actual none none (items.filterMap baseTerm) (actualSum p) ∧
    given (liftRecord p n) .lift (some (includedCounts lifted)) (some ⟨p.snap.claimState, p.snap.claimNumber⟩)
      ((left lifted).filterMap baseTerm) (liftSum p lifted) ∧
    given (finalRecord p n) .final none none
      (items.filterMap baseTerm ++ items.filterMap deltaTerm ++ trialTerms items p.snap.trials) (finalSum p) ∧
    (p.snap.claimState ≠ .probing → probeRecord p n = none) ∧
    (p.snap.claimState = .probing → ∃ r, probeRecord p n = some r ∧
      given r .probe (some (includedCounts probed)) (some ⟨.probing, p.snap.claim.map (·.number)⟩)
        ((left probed).filterMap baseTerm) (liftSum p probed))

/-! ### Encodings -/

/-- Decoding what a station encodes gives it back: every frame whose fields fit its layout, every HOOK record in range and every LEVELS
record of 1 to 8 levels in range (R107, R110 to R112, R145, R165). -/
def Obligations.FramesAndSensorRecordsRoundTrip : Prop :=
  (∀ f : Frame, frameFits f = true → frameOf (encodeFrame f) = some f) ∧
  (∀ r : HookRecord, hookFits r = true → hookRecordOf (encodeHook r) = some r) ∧
  (∀ ls : List Int, 1 ≤ ls.length → ls.length ≤ 8 → (∀ v ∈ ls, -100000 ≤ v ∧ v ≤ 1000000) →
    levelsOf ls.length (encodeLevels ls) = some ls)
end

