-- ==== Sys2Proof/Laws/State.lean ====
section
/-! SUPPORT. One lemma per field of State and update: a frame proof never unfolds a block update. -/

namespace Sys2Proof.Machine

@[simp] theorem State.setPending_pending (s : State) (v : List Instr) : (s.setPending v).pending = v := rfl
@[simp] theorem State.setPending_station (s : State) (v : List Instr) : (s.setPending v).station = s.station := rfl
@[simp] theorem State.setPending_power (s : State) (v : List Instr) : (s.setPending v).power = s.power := rfl
@[simp] theorem State.setPending_table (s : State) (v : List Instr) : (s.setPending v).table = s.table := rfl
@[simp] theorem State.setPending_stowage (s : State) (v : List Instr) : (s.setPending v).stowage = s.stowage := rfl
@[simp] theorem State.setPending_trial (s : State) (v : List Instr) : (s.setPending v).trial = s.trial := rfl
@[simp] theorem State.setPending_solver (s : State) (v : List Instr) : (s.setPending v).solver = s.solver := rfl
@[simp] theorem State.setPending_view (s : State) (v : List Instr) : (s.setPending v).view = s.view := rfl
@[simp] theorem State.setPending_link (s : State) (v : List Instr) : (s.setPending v).link = s.link := rfl
@[simp] theorem State.setPending_claim (s : State) (v : List Instr) : (s.setPending v).claim = s.claim := rfl
@[simp] theorem State.setPending_sensor (s : State) (v : List Instr) : (s.setPending v).sensor = s.sensor := rfl
@[simp] theorem State.setPending_crane (s : State) (v : List Instr) : (s.setPending v).crane = s.crane := rfl
@[simp] theorem State.setPending_lines (s : State) (v : List Instr) : (s.setPending v).lines = s.lines := rfl
@[simp] theorem State.setPending_pump (s : State) (v : List Instr) : (s.setPending v).pump = s.pump := rfl
@[simp] theorem State.setPending_report (s : State) (v : List Instr) : (s.setPending v).report = s.report := rfl
@[simp] theorem State.setPending_journal (s : State) (v : List Instr) : (s.setPending v).journal = s.journal := rfl
@[simp] theorem State.setPending_memory (s : State) (v : List Instr) : (s.setPending v).memory = s.memory := rfl
@[simp] theorem State.setPending_panel (s : State) (v : List Instr) : (s.setPending v).panel = s.panel := rfl

@[simp] theorem State.setStation_pending (s : State) (v : Station) : (s.setStation v).pending = s.pending := rfl
@[simp] theorem State.setStation_station (s : State) (v : Station) : (s.setStation v).station = v := rfl
@[simp] theorem State.setStation_power (s : State) (v : Station) : (s.setStation v).power = s.power := rfl
@[simp] theorem State.setStation_table (s : State) (v : Station) : (s.setStation v).table = s.table := rfl
@[simp] theorem State.setStation_stowage (s : State) (v : Station) : (s.setStation v).stowage = s.stowage := rfl
@[simp] theorem State.setStation_trial (s : State) (v : Station) : (s.setStation v).trial = s.trial := rfl
@[simp] theorem State.setStation_solver (s : State) (v : Station) : (s.setStation v).solver = s.solver := rfl
@[simp] theorem State.setStation_view (s : State) (v : Station) : (s.setStation v).view = s.view := rfl
@[simp] theorem State.setStation_link (s : State) (v : Station) : (s.setStation v).link = s.link := rfl
@[simp] theorem State.setStation_claim (s : State) (v : Station) : (s.setStation v).claim = s.claim := rfl
@[simp] theorem State.setStation_sensor (s : State) (v : Station) : (s.setStation v).sensor = s.sensor := rfl
@[simp] theorem State.setStation_crane (s : State) (v : Station) : (s.setStation v).crane = s.crane := rfl
@[simp] theorem State.setStation_lines (s : State) (v : Station) : (s.setStation v).lines = s.lines := rfl
@[simp] theorem State.setStation_pump (s : State) (v : Station) : (s.setStation v).pump = s.pump := rfl
@[simp] theorem State.setStation_report (s : State) (v : Station) : (s.setStation v).report = s.report := rfl
@[simp] theorem State.setStation_journal (s : State) (v : Station) : (s.setStation v).journal = s.journal := rfl
@[simp] theorem State.setStation_memory (s : State) (v : Station) : (s.setStation v).memory = s.memory := rfl
@[simp] theorem State.setStation_panel (s : State) (v : Station) : (s.setStation v).panel = s.panel := rfl

@[simp] theorem State.setPower_pending (s : State) (v : Power) : (s.setPower v).pending = s.pending := rfl
@[simp] theorem State.setPower_station (s : State) (v : Power) : (s.setPower v).station = s.station := rfl
@[simp] theorem State.setPower_power (s : State) (v : Power) : (s.setPower v).power = v := rfl
@[simp] theorem State.setPower_table (s : State) (v : Power) : (s.setPower v).table = s.table := rfl
@[simp] theorem State.setPower_stowage (s : State) (v : Power) : (s.setPower v).stowage = s.stowage := rfl
@[simp] theorem State.setPower_trial (s : State) (v : Power) : (s.setPower v).trial = s.trial := rfl
@[simp] theorem State.setPower_solver (s : State) (v : Power) : (s.setPower v).solver = s.solver := rfl
@[simp] theorem State.setPower_view (s : State) (v : Power) : (s.setPower v).view = s.view := rfl
@[simp] theorem State.setPower_link (s : State) (v : Power) : (s.setPower v).link = s.link := rfl
@[simp] theorem State.setPower_claim (s : State) (v : Power) : (s.setPower v).claim = s.claim := rfl
@[simp] theorem State.setPower_sensor (s : State) (v : Power) : (s.setPower v).sensor = s.sensor := rfl
@[simp] theorem State.setPower_crane (s : State) (v : Power) : (s.setPower v).crane = s.crane := rfl
@[simp] theorem State.setPower_lines (s : State) (v : Power) : (s.setPower v).lines = s.lines := rfl
@[simp] theorem State.setPower_pump (s : State) (v : Power) : (s.setPower v).pump = s.pump := rfl
@[simp] theorem State.setPower_report (s : State) (v : Power) : (s.setPower v).report = s.report := rfl
@[simp] theorem State.setPower_journal (s : State) (v : Power) : (s.setPower v).journal = s.journal := rfl
@[simp] theorem State.setPower_memory (s : State) (v : Power) : (s.setPower v).memory = s.memory := rfl
@[simp] theorem State.setPower_panel (s : State) (v : Power) : (s.setPower v).panel = s.panel := rfl

@[simp] theorem State.setTable_pending (s : State) (v : TableStore) : (s.setTable v).pending = s.pending := rfl
@[simp] theorem State.setTable_station (s : State) (v : TableStore) : (s.setTable v).station = s.station := rfl
@[simp] theorem State.setTable_power (s : State) (v : TableStore) : (s.setTable v).power = s.power := rfl
@[simp] theorem State.setTable_table (s : State) (v : TableStore) : (s.setTable v).table = v := rfl
@[simp] theorem State.setTable_stowage (s : State) (v : TableStore) : (s.setTable v).stowage = s.stowage := rfl
@[simp] theorem State.setTable_trial (s : State) (v : TableStore) : (s.setTable v).trial = s.trial := rfl
@[simp] theorem State.setTable_solver (s : State) (v : TableStore) : (s.setTable v).solver = s.solver := rfl
@[simp] theorem State.setTable_view (s : State) (v : TableStore) : (s.setTable v).view = s.view := rfl
@[simp] theorem State.setTable_link (s : State) (v : TableStore) : (s.setTable v).link = s.link := rfl
@[simp] theorem State.setTable_claim (s : State) (v : TableStore) : (s.setTable v).claim = s.claim := rfl
@[simp] theorem State.setTable_sensor (s : State) (v : TableStore) : (s.setTable v).sensor = s.sensor := rfl
@[simp] theorem State.setTable_crane (s : State) (v : TableStore) : (s.setTable v).crane = s.crane := rfl
@[simp] theorem State.setTable_lines (s : State) (v : TableStore) : (s.setTable v).lines = s.lines := rfl
@[simp] theorem State.setTable_pump (s : State) (v : TableStore) : (s.setTable v).pump = s.pump := rfl
@[simp] theorem State.setTable_report (s : State) (v : TableStore) : (s.setTable v).report = s.report := rfl
@[simp] theorem State.setTable_journal (s : State) (v : TableStore) : (s.setTable v).journal = s.journal := rfl
@[simp] theorem State.setTable_memory (s : State) (v : TableStore) : (s.setTable v).memory = s.memory := rfl
@[simp] theorem State.setTable_panel (s : State) (v : TableStore) : (s.setTable v).panel = s.panel := rfl

@[simp] theorem State.setStowage_pending (s : State) (v : Stowage) : (s.setStowage v).pending = s.pending := rfl
@[simp] theorem State.setStowage_station (s : State) (v : Stowage) : (s.setStowage v).station = s.station := rfl
@[simp] theorem State.setStowage_power (s : State) (v : Stowage) : (s.setStowage v).power = s.power := rfl
@[simp] theorem State.setStowage_table (s : State) (v : Stowage) : (s.setStowage v).table = s.table := rfl
@[simp] theorem State.setStowage_stowage (s : State) (v : Stowage) : (s.setStowage v).stowage = v := rfl
@[simp] theorem State.setStowage_trial (s : State) (v : Stowage) : (s.setStowage v).trial = s.trial := rfl
@[simp] theorem State.setStowage_solver (s : State) (v : Stowage) : (s.setStowage v).solver = s.solver := rfl
@[simp] theorem State.setStowage_view (s : State) (v : Stowage) : (s.setStowage v).view = s.view := rfl
@[simp] theorem State.setStowage_link (s : State) (v : Stowage) : (s.setStowage v).link = s.link := rfl
@[simp] theorem State.setStowage_claim (s : State) (v : Stowage) : (s.setStowage v).claim = s.claim := rfl
@[simp] theorem State.setStowage_sensor (s : State) (v : Stowage) : (s.setStowage v).sensor = s.sensor := rfl
@[simp] theorem State.setStowage_crane (s : State) (v : Stowage) : (s.setStowage v).crane = s.crane := rfl
@[simp] theorem State.setStowage_lines (s : State) (v : Stowage) : (s.setStowage v).lines = s.lines := rfl
@[simp] theorem State.setStowage_pump (s : State) (v : Stowage) : (s.setStowage v).pump = s.pump := rfl
@[simp] theorem State.setStowage_report (s : State) (v : Stowage) : (s.setStowage v).report = s.report := rfl
@[simp] theorem State.setStowage_journal (s : State) (v : Stowage) : (s.setStowage v).journal = s.journal := rfl
@[simp] theorem State.setStowage_memory (s : State) (v : Stowage) : (s.setStowage v).memory = s.memory := rfl
@[simp] theorem State.setStowage_panel (s : State) (v : Stowage) : (s.setStowage v).panel = s.panel := rfl

@[simp] theorem State.setTrial_pending (s : State) (v : List TrialEntry) : (s.setTrial v).pending = s.pending := rfl
@[simp] theorem State.setTrial_station (s : State) (v : List TrialEntry) : (s.setTrial v).station = s.station := rfl
@[simp] theorem State.setTrial_power (s : State) (v : List TrialEntry) : (s.setTrial v).power = s.power := rfl
@[simp] theorem State.setTrial_table (s : State) (v : List TrialEntry) : (s.setTrial v).table = s.table := rfl
@[simp] theorem State.setTrial_stowage (s : State) (v : List TrialEntry) : (s.setTrial v).stowage = s.stowage := rfl
@[simp] theorem State.setTrial_trial (s : State) (v : List TrialEntry) : (s.setTrial v).trial = v := rfl
@[simp] theorem State.setTrial_solver (s : State) (v : List TrialEntry) : (s.setTrial v).solver = s.solver := rfl
@[simp] theorem State.setTrial_view (s : State) (v : List TrialEntry) : (s.setTrial v).view = s.view := rfl
@[simp] theorem State.setTrial_link (s : State) (v : List TrialEntry) : (s.setTrial v).link = s.link := rfl
@[simp] theorem State.setTrial_claim (s : State) (v : List TrialEntry) : (s.setTrial v).claim = s.claim := rfl
@[simp] theorem State.setTrial_sensor (s : State) (v : List TrialEntry) : (s.setTrial v).sensor = s.sensor := rfl
@[simp] theorem State.setTrial_crane (s : State) (v : List TrialEntry) : (s.setTrial v).crane = s.crane := rfl
@[simp] theorem State.setTrial_lines (s : State) (v : List TrialEntry) : (s.setTrial v).lines = s.lines := rfl
@[simp] theorem State.setTrial_pump (s : State) (v : List TrialEntry) : (s.setTrial v).pump = s.pump := rfl
@[simp] theorem State.setTrial_report (s : State) (v : List TrialEntry) : (s.setTrial v).report = s.report := rfl
@[simp] theorem State.setTrial_journal (s : State) (v : List TrialEntry) : (s.setTrial v).journal = s.journal := rfl
@[simp] theorem State.setTrial_memory (s : State) (v : List TrialEntry) : (s.setTrial v).memory = s.memory := rfl
@[simp] theorem State.setTrial_panel (s : State) (v : List TrialEntry) : (s.setTrial v).panel = s.panel := rfl

@[simp] theorem State.setSolver_pending (s : State) (v : Solver) : (s.setSolver v).pending = s.pending := rfl
@[simp] theorem State.setSolver_station (s : State) (v : Solver) : (s.setSolver v).station = s.station := rfl
@[simp] theorem State.setSolver_power (s : State) (v : Solver) : (s.setSolver v).power = s.power := rfl
@[simp] theorem State.setSolver_table (s : State) (v : Solver) : (s.setSolver v).table = s.table := rfl
@[simp] theorem State.setSolver_stowage (s : State) (v : Solver) : (s.setSolver v).stowage = s.stowage := rfl
@[simp] theorem State.setSolver_trial (s : State) (v : Solver) : (s.setSolver v).trial = s.trial := rfl
@[simp] theorem State.setSolver_solver (s : State) (v : Solver) : (s.setSolver v).solver = v := rfl
@[simp] theorem State.setSolver_view (s : State) (v : Solver) : (s.setSolver v).view = s.view := rfl
@[simp] theorem State.setSolver_link (s : State) (v : Solver) : (s.setSolver v).link = s.link := rfl
@[simp] theorem State.setSolver_claim (s : State) (v : Solver) : (s.setSolver v).claim = s.claim := rfl
@[simp] theorem State.setSolver_sensor (s : State) (v : Solver) : (s.setSolver v).sensor = s.sensor := rfl
@[simp] theorem State.setSolver_crane (s : State) (v : Solver) : (s.setSolver v).crane = s.crane := rfl
@[simp] theorem State.setSolver_lines (s : State) (v : Solver) : (s.setSolver v).lines = s.lines := rfl
@[simp] theorem State.setSolver_pump (s : State) (v : Solver) : (s.setSolver v).pump = s.pump := rfl
@[simp] theorem State.setSolver_report (s : State) (v : Solver) : (s.setSolver v).report = s.report := rfl
@[simp] theorem State.setSolver_journal (s : State) (v : Solver) : (s.setSolver v).journal = s.journal := rfl
@[simp] theorem State.setSolver_memory (s : State) (v : Solver) : (s.setSolver v).memory = s.memory := rfl
@[simp] theorem State.setSolver_panel (s : State) (v : Solver) : (s.setSolver v).panel = s.panel := rfl

@[simp] theorem State.setView_pending (s : State) (v : View) : (s.setView v).pending = s.pending := rfl
@[simp] theorem State.setView_station (s : State) (v : View) : (s.setView v).station = s.station := rfl
@[simp] theorem State.setView_power (s : State) (v : View) : (s.setView v).power = s.power := rfl
@[simp] theorem State.setView_table (s : State) (v : View) : (s.setView v).table = s.table := rfl
@[simp] theorem State.setView_stowage (s : State) (v : View) : (s.setView v).stowage = s.stowage := rfl
@[simp] theorem State.setView_trial (s : State) (v : View) : (s.setView v).trial = s.trial := rfl
@[simp] theorem State.setView_solver (s : State) (v : View) : (s.setView v).solver = s.solver := rfl
@[simp] theorem State.setView_view (s : State) (v : View) : (s.setView v).view = v := rfl
@[simp] theorem State.setView_link (s : State) (v : View) : (s.setView v).link = s.link := rfl
@[simp] theorem State.setView_claim (s : State) (v : View) : (s.setView v).claim = s.claim := rfl
@[simp] theorem State.setView_sensor (s : State) (v : View) : (s.setView v).sensor = s.sensor := rfl
@[simp] theorem State.setView_crane (s : State) (v : View) : (s.setView v).crane = s.crane := rfl
@[simp] theorem State.setView_lines (s : State) (v : View) : (s.setView v).lines = s.lines := rfl
@[simp] theorem State.setView_pump (s : State) (v : View) : (s.setView v).pump = s.pump := rfl
@[simp] theorem State.setView_report (s : State) (v : View) : (s.setView v).report = s.report := rfl
@[simp] theorem State.setView_journal (s : State) (v : View) : (s.setView v).journal = s.journal := rfl
@[simp] theorem State.setView_memory (s : State) (v : View) : (s.setView v).memory = s.memory := rfl
@[simp] theorem State.setView_panel (s : State) (v : View) : (s.setView v).panel = s.panel := rfl

@[simp] theorem State.setLink_pending (s : State) (v : Link) : (s.setLink v).pending = s.pending := rfl
@[simp] theorem State.setLink_station (s : State) (v : Link) : (s.setLink v).station = s.station := rfl
@[simp] theorem State.setLink_power (s : State) (v : Link) : (s.setLink v).power = s.power := rfl
@[simp] theorem State.setLink_table (s : State) (v : Link) : (s.setLink v).table = s.table := rfl
@[simp] theorem State.setLink_stowage (s : State) (v : Link) : (s.setLink v).stowage = s.stowage := rfl
@[simp] theorem State.setLink_trial (s : State) (v : Link) : (s.setLink v).trial = s.trial := rfl
@[simp] theorem State.setLink_solver (s : State) (v : Link) : (s.setLink v).solver = s.solver := rfl
@[simp] theorem State.setLink_view (s : State) (v : Link) : (s.setLink v).view = s.view := rfl
@[simp] theorem State.setLink_link (s : State) (v : Link) : (s.setLink v).link = v := rfl
@[simp] theorem State.setLink_claim (s : State) (v : Link) : (s.setLink v).claim = s.claim := rfl
@[simp] theorem State.setLink_sensor (s : State) (v : Link) : (s.setLink v).sensor = s.sensor := rfl
@[simp] theorem State.setLink_crane (s : State) (v : Link) : (s.setLink v).crane = s.crane := rfl
@[simp] theorem State.setLink_lines (s : State) (v : Link) : (s.setLink v).lines = s.lines := rfl
@[simp] theorem State.setLink_pump (s : State) (v : Link) : (s.setLink v).pump = s.pump := rfl
@[simp] theorem State.setLink_report (s : State) (v : Link) : (s.setLink v).report = s.report := rfl
@[simp] theorem State.setLink_journal (s : State) (v : Link) : (s.setLink v).journal = s.journal := rfl
@[simp] theorem State.setLink_memory (s : State) (v : Link) : (s.setLink v).memory = s.memory := rfl
@[simp] theorem State.setLink_panel (s : State) (v : Link) : (s.setLink v).panel = s.panel := rfl

@[simp] theorem State.setClaim_pending (s : State) (v : ClaimUnit) : (s.setClaim v).pending = s.pending := rfl
@[simp] theorem State.setClaim_station (s : State) (v : ClaimUnit) : (s.setClaim v).station = s.station := rfl
@[simp] theorem State.setClaim_power (s : State) (v : ClaimUnit) : (s.setClaim v).power = s.power := rfl
@[simp] theorem State.setClaim_table (s : State) (v : ClaimUnit) : (s.setClaim v).table = s.table := rfl
@[simp] theorem State.setClaim_stowage (s : State) (v : ClaimUnit) : (s.setClaim v).stowage = s.stowage := rfl
@[simp] theorem State.setClaim_trial (s : State) (v : ClaimUnit) : (s.setClaim v).trial = s.trial := rfl
@[simp] theorem State.setClaim_solver (s : State) (v : ClaimUnit) : (s.setClaim v).solver = s.solver := rfl
@[simp] theorem State.setClaim_view (s : State) (v : ClaimUnit) : (s.setClaim v).view = s.view := rfl
@[simp] theorem State.setClaim_link (s : State) (v : ClaimUnit) : (s.setClaim v).link = s.link := rfl
@[simp] theorem State.setClaim_claim (s : State) (v : ClaimUnit) : (s.setClaim v).claim = v := rfl
@[simp] theorem State.setClaim_sensor (s : State) (v : ClaimUnit) : (s.setClaim v).sensor = s.sensor := rfl
@[simp] theorem State.setClaim_crane (s : State) (v : ClaimUnit) : (s.setClaim v).crane = s.crane := rfl
@[simp] theorem State.setClaim_lines (s : State) (v : ClaimUnit) : (s.setClaim v).lines = s.lines := rfl
@[simp] theorem State.setClaim_pump (s : State) (v : ClaimUnit) : (s.setClaim v).pump = s.pump := rfl
@[simp] theorem State.setClaim_report (s : State) (v : ClaimUnit) : (s.setClaim v).report = s.report := rfl
@[simp] theorem State.setClaim_journal (s : State) (v : ClaimUnit) : (s.setClaim v).journal = s.journal := rfl
@[simp] theorem State.setClaim_memory (s : State) (v : ClaimUnit) : (s.setClaim v).memory = s.memory := rfl
@[simp] theorem State.setClaim_panel (s : State) (v : ClaimUnit) : (s.setClaim v).panel = s.panel := rfl

@[simp] theorem State.setSensor_pending (s : State) (v : Sensor) : (s.setSensor v).pending = s.pending := rfl
@[simp] theorem State.setSensor_station (s : State) (v : Sensor) : (s.setSensor v).station = s.station := rfl
@[simp] theorem State.setSensor_power (s : State) (v : Sensor) : (s.setSensor v).power = s.power := rfl
@[simp] theorem State.setSensor_table (s : State) (v : Sensor) : (s.setSensor v).table = s.table := rfl
@[simp] theorem State.setSensor_stowage (s : State) (v : Sensor) : (s.setSensor v).stowage = s.stowage := rfl
@[simp] theorem State.setSensor_trial (s : State) (v : Sensor) : (s.setSensor v).trial = s.trial := rfl
@[simp] theorem State.setSensor_solver (s : State) (v : Sensor) : (s.setSensor v).solver = s.solver := rfl
@[simp] theorem State.setSensor_view (s : State) (v : Sensor) : (s.setSensor v).view = s.view := rfl
@[simp] theorem State.setSensor_link (s : State) (v : Sensor) : (s.setSensor v).link = s.link := rfl
@[simp] theorem State.setSensor_claim (s : State) (v : Sensor) : (s.setSensor v).claim = s.claim := rfl
@[simp] theorem State.setSensor_sensor (s : State) (v : Sensor) : (s.setSensor v).sensor = v := rfl
@[simp] theorem State.setSensor_crane (s : State) (v : Sensor) : (s.setSensor v).crane = s.crane := rfl
@[simp] theorem State.setSensor_lines (s : State) (v : Sensor) : (s.setSensor v).lines = s.lines := rfl
@[simp] theorem State.setSensor_pump (s : State) (v : Sensor) : (s.setSensor v).pump = s.pump := rfl
@[simp] theorem State.setSensor_report (s : State) (v : Sensor) : (s.setSensor v).report = s.report := rfl
@[simp] theorem State.setSensor_journal (s : State) (v : Sensor) : (s.setSensor v).journal = s.journal := rfl
@[simp] theorem State.setSensor_memory (s : State) (v : Sensor) : (s.setSensor v).memory = s.memory := rfl
@[simp] theorem State.setSensor_panel (s : State) (v : Sensor) : (s.setSensor v).panel = s.panel := rfl

@[simp] theorem State.setCrane_pending (s : State) (v : Crane) : (s.setCrane v).pending = s.pending := rfl
@[simp] theorem State.setCrane_station (s : State) (v : Crane) : (s.setCrane v).station = s.station := rfl
@[simp] theorem State.setCrane_power (s : State) (v : Crane) : (s.setCrane v).power = s.power := rfl
@[simp] theorem State.setCrane_table (s : State) (v : Crane) : (s.setCrane v).table = s.table := rfl
@[simp] theorem State.setCrane_stowage (s : State) (v : Crane) : (s.setCrane v).stowage = s.stowage := rfl
@[simp] theorem State.setCrane_trial (s : State) (v : Crane) : (s.setCrane v).trial = s.trial := rfl
@[simp] theorem State.setCrane_solver (s : State) (v : Crane) : (s.setCrane v).solver = s.solver := rfl
@[simp] theorem State.setCrane_view (s : State) (v : Crane) : (s.setCrane v).view = s.view := rfl
@[simp] theorem State.setCrane_link (s : State) (v : Crane) : (s.setCrane v).link = s.link := rfl
@[simp] theorem State.setCrane_claim (s : State) (v : Crane) : (s.setCrane v).claim = s.claim := rfl
@[simp] theorem State.setCrane_sensor (s : State) (v : Crane) : (s.setCrane v).sensor = s.sensor := rfl
@[simp] theorem State.setCrane_crane (s : State) (v : Crane) : (s.setCrane v).crane = v := rfl
@[simp] theorem State.setCrane_lines (s : State) (v : Crane) : (s.setCrane v).lines = s.lines := rfl
@[simp] theorem State.setCrane_pump (s : State) (v : Crane) : (s.setCrane v).pump = s.pump := rfl
@[simp] theorem State.setCrane_report (s : State) (v : Crane) : (s.setCrane v).report = s.report := rfl
@[simp] theorem State.setCrane_journal (s : State) (v : Crane) : (s.setCrane v).journal = s.journal := rfl
@[simp] theorem State.setCrane_memory (s : State) (v : Crane) : (s.setCrane v).memory = s.memory := rfl
@[simp] theorem State.setCrane_panel (s : State) (v : Crane) : (s.setCrane v).panel = s.panel := rfl

@[simp] theorem State.setLines_pending (s : State) (v : Lines) : (s.setLines v).pending = s.pending := rfl
@[simp] theorem State.setLines_station (s : State) (v : Lines) : (s.setLines v).station = s.station := rfl
@[simp] theorem State.setLines_power (s : State) (v : Lines) : (s.setLines v).power = s.power := rfl
@[simp] theorem State.setLines_table (s : State) (v : Lines) : (s.setLines v).table = s.table := rfl
@[simp] theorem State.setLines_stowage (s : State) (v : Lines) : (s.setLines v).stowage = s.stowage := rfl
@[simp] theorem State.setLines_trial (s : State) (v : Lines) : (s.setLines v).trial = s.trial := rfl
@[simp] theorem State.setLines_solver (s : State) (v : Lines) : (s.setLines v).solver = s.solver := rfl
@[simp] theorem State.setLines_view (s : State) (v : Lines) : (s.setLines v).view = s.view := rfl
@[simp] theorem State.setLines_link (s : State) (v : Lines) : (s.setLines v).link = s.link := rfl
@[simp] theorem State.setLines_claim (s : State) (v : Lines) : (s.setLines v).claim = s.claim := rfl
@[simp] theorem State.setLines_sensor (s : State) (v : Lines) : (s.setLines v).sensor = s.sensor := rfl
@[simp] theorem State.setLines_crane (s : State) (v : Lines) : (s.setLines v).crane = s.crane := rfl
@[simp] theorem State.setLines_lines (s : State) (v : Lines) : (s.setLines v).lines = v := rfl
@[simp] theorem State.setLines_pump (s : State) (v : Lines) : (s.setLines v).pump = s.pump := rfl
@[simp] theorem State.setLines_report (s : State) (v : Lines) : (s.setLines v).report = s.report := rfl
@[simp] theorem State.setLines_journal (s : State) (v : Lines) : (s.setLines v).journal = s.journal := rfl
@[simp] theorem State.setLines_memory (s : State) (v : Lines) : (s.setLines v).memory = s.memory := rfl
@[simp] theorem State.setLines_panel (s : State) (v : Lines) : (s.setLines v).panel = s.panel := rfl

@[simp] theorem State.setPump_pending (s : State) (v : Pump) : (s.setPump v).pending = s.pending := rfl
@[simp] theorem State.setPump_station (s : State) (v : Pump) : (s.setPump v).station = s.station := rfl
@[simp] theorem State.setPump_power (s : State) (v : Pump) : (s.setPump v).power = s.power := rfl
@[simp] theorem State.setPump_table (s : State) (v : Pump) : (s.setPump v).table = s.table := rfl
@[simp] theorem State.setPump_stowage (s : State) (v : Pump) : (s.setPump v).stowage = s.stowage := rfl
@[simp] theorem State.setPump_trial (s : State) (v : Pump) : (s.setPump v).trial = s.trial := rfl
@[simp] theorem State.setPump_solver (s : State) (v : Pump) : (s.setPump v).solver = s.solver := rfl
@[simp] theorem State.setPump_view (s : State) (v : Pump) : (s.setPump v).view = s.view := rfl
@[simp] theorem State.setPump_link (s : State) (v : Pump) : (s.setPump v).link = s.link := rfl
@[simp] theorem State.setPump_claim (s : State) (v : Pump) : (s.setPump v).claim = s.claim := rfl
@[simp] theorem State.setPump_sensor (s : State) (v : Pump) : (s.setPump v).sensor = s.sensor := rfl
@[simp] theorem State.setPump_crane (s : State) (v : Pump) : (s.setPump v).crane = s.crane := rfl
@[simp] theorem State.setPump_lines (s : State) (v : Pump) : (s.setPump v).lines = s.lines := rfl
@[simp] theorem State.setPump_pump (s : State) (v : Pump) : (s.setPump v).pump = v := rfl
@[simp] theorem State.setPump_report (s : State) (v : Pump) : (s.setPump v).report = s.report := rfl
@[simp] theorem State.setPump_journal (s : State) (v : Pump) : (s.setPump v).journal = s.journal := rfl
@[simp] theorem State.setPump_memory (s : State) (v : Pump) : (s.setPump v).memory = s.memory := rfl
@[simp] theorem State.setPump_panel (s : State) (v : Pump) : (s.setPump v).panel = s.panel := rfl

@[simp] theorem State.setReport_pending (s : State) (v : Report) : (s.setReport v).pending = s.pending := rfl
@[simp] theorem State.setReport_station (s : State) (v : Report) : (s.setReport v).station = s.station := rfl
@[simp] theorem State.setReport_power (s : State) (v : Report) : (s.setReport v).power = s.power := rfl
@[simp] theorem State.setReport_table (s : State) (v : Report) : (s.setReport v).table = s.table := rfl
@[simp] theorem State.setReport_stowage (s : State) (v : Report) : (s.setReport v).stowage = s.stowage := rfl
@[simp] theorem State.setReport_trial (s : State) (v : Report) : (s.setReport v).trial = s.trial := rfl
@[simp] theorem State.setReport_solver (s : State) (v : Report) : (s.setReport v).solver = s.solver := rfl
@[simp] theorem State.setReport_view (s : State) (v : Report) : (s.setReport v).view = s.view := rfl
@[simp] theorem State.setReport_link (s : State) (v : Report) : (s.setReport v).link = s.link := rfl
@[simp] theorem State.setReport_claim (s : State) (v : Report) : (s.setReport v).claim = s.claim := rfl
@[simp] theorem State.setReport_sensor (s : State) (v : Report) : (s.setReport v).sensor = s.sensor := rfl
@[simp] theorem State.setReport_crane (s : State) (v : Report) : (s.setReport v).crane = s.crane := rfl
@[simp] theorem State.setReport_lines (s : State) (v : Report) : (s.setReport v).lines = s.lines := rfl
@[simp] theorem State.setReport_pump (s : State) (v : Report) : (s.setReport v).pump = s.pump := rfl
@[simp] theorem State.setReport_report (s : State) (v : Report) : (s.setReport v).report = v := rfl
@[simp] theorem State.setReport_journal (s : State) (v : Report) : (s.setReport v).journal = s.journal := rfl
@[simp] theorem State.setReport_memory (s : State) (v : Report) : (s.setReport v).memory = s.memory := rfl
@[simp] theorem State.setReport_panel (s : State) (v : Report) : (s.setReport v).panel = s.panel := rfl

@[simp] theorem State.setJournal_pending (s : State) (v : Journal) : (s.setJournal v).pending = s.pending := rfl
@[simp] theorem State.setJournal_station (s : State) (v : Journal) : (s.setJournal v).station = s.station := rfl
@[simp] theorem State.setJournal_power (s : State) (v : Journal) : (s.setJournal v).power = s.power := rfl
@[simp] theorem State.setJournal_table (s : State) (v : Journal) : (s.setJournal v).table = s.table := rfl
@[simp] theorem State.setJournal_stowage (s : State) (v : Journal) : (s.setJournal v).stowage = s.stowage := rfl
@[simp] theorem State.setJournal_trial (s : State) (v : Journal) : (s.setJournal v).trial = s.trial := rfl
@[simp] theorem State.setJournal_solver (s : State) (v : Journal) : (s.setJournal v).solver = s.solver := rfl
@[simp] theorem State.setJournal_view (s : State) (v : Journal) : (s.setJournal v).view = s.view := rfl
@[simp] theorem State.setJournal_link (s : State) (v : Journal) : (s.setJournal v).link = s.link := rfl
@[simp] theorem State.setJournal_claim (s : State) (v : Journal) : (s.setJournal v).claim = s.claim := rfl
@[simp] theorem State.setJournal_sensor (s : State) (v : Journal) : (s.setJournal v).sensor = s.sensor := rfl
@[simp] theorem State.setJournal_crane (s : State) (v : Journal) : (s.setJournal v).crane = s.crane := rfl
@[simp] theorem State.setJournal_lines (s : State) (v : Journal) : (s.setJournal v).lines = s.lines := rfl
@[simp] theorem State.setJournal_pump (s : State) (v : Journal) : (s.setJournal v).pump = s.pump := rfl
@[simp] theorem State.setJournal_report (s : State) (v : Journal) : (s.setJournal v).report = s.report := rfl
@[simp] theorem State.setJournal_journal (s : State) (v : Journal) : (s.setJournal v).journal = v := rfl
@[simp] theorem State.setJournal_memory (s : State) (v : Journal) : (s.setJournal v).memory = s.memory := rfl
@[simp] theorem State.setJournal_panel (s : State) (v : Journal) : (s.setJournal v).panel = s.panel := rfl

@[simp] theorem State.setMemory_pending (s : State) (v : RetainedMemory) : (s.setMemory v).pending = s.pending := rfl
@[simp] theorem State.setMemory_station (s : State) (v : RetainedMemory) : (s.setMemory v).station = s.station := rfl
@[simp] theorem State.setMemory_power (s : State) (v : RetainedMemory) : (s.setMemory v).power = s.power := rfl
@[simp] theorem State.setMemory_table (s : State) (v : RetainedMemory) : (s.setMemory v).table = s.table := rfl
@[simp] theorem State.setMemory_stowage (s : State) (v : RetainedMemory) : (s.setMemory v).stowage = s.stowage := rfl
@[simp] theorem State.setMemory_trial (s : State) (v : RetainedMemory) : (s.setMemory v).trial = s.trial := rfl
@[simp] theorem State.setMemory_solver (s : State) (v : RetainedMemory) : (s.setMemory v).solver = s.solver := rfl
@[simp] theorem State.setMemory_view (s : State) (v : RetainedMemory) : (s.setMemory v).view = s.view := rfl
@[simp] theorem State.setMemory_link (s : State) (v : RetainedMemory) : (s.setMemory v).link = s.link := rfl
@[simp] theorem State.setMemory_claim (s : State) (v : RetainedMemory) : (s.setMemory v).claim = s.claim := rfl
@[simp] theorem State.setMemory_sensor (s : State) (v : RetainedMemory) : (s.setMemory v).sensor = s.sensor := rfl
@[simp] theorem State.setMemory_crane (s : State) (v : RetainedMemory) : (s.setMemory v).crane = s.crane := rfl
@[simp] theorem State.setMemory_lines (s : State) (v : RetainedMemory) : (s.setMemory v).lines = s.lines := rfl
@[simp] theorem State.setMemory_pump (s : State) (v : RetainedMemory) : (s.setMemory v).pump = s.pump := rfl
@[simp] theorem State.setMemory_report (s : State) (v : RetainedMemory) : (s.setMemory v).report = s.report := rfl
@[simp] theorem State.setMemory_journal (s : State) (v : RetainedMemory) : (s.setMemory v).journal = s.journal := rfl
@[simp] theorem State.setMemory_memory (s : State) (v : RetainedMemory) : (s.setMemory v).memory = v := rfl
@[simp] theorem State.setMemory_panel (s : State) (v : RetainedMemory) : (s.setMemory v).panel = s.panel := rfl

@[simp] theorem State.setPanel_pending (s : State) (v : Panel) : (s.setPanel v).pending = s.pending := rfl
@[simp] theorem State.setPanel_station (s : State) (v : Panel) : (s.setPanel v).station = s.station := rfl
@[simp] theorem State.setPanel_power (s : State) (v : Panel) : (s.setPanel v).power = s.power := rfl
@[simp] theorem State.setPanel_table (s : State) (v : Panel) : (s.setPanel v).table = s.table := rfl
@[simp] theorem State.setPanel_stowage (s : State) (v : Panel) : (s.setPanel v).stowage = s.stowage := rfl
@[simp] theorem State.setPanel_trial (s : State) (v : Panel) : (s.setPanel v).trial = s.trial := rfl
@[simp] theorem State.setPanel_solver (s : State) (v : Panel) : (s.setPanel v).solver = s.solver := rfl
@[simp] theorem State.setPanel_view (s : State) (v : Panel) : (s.setPanel v).view = s.view := rfl
@[simp] theorem State.setPanel_link (s : State) (v : Panel) : (s.setPanel v).link = s.link := rfl
@[simp] theorem State.setPanel_claim (s : State) (v : Panel) : (s.setPanel v).claim = s.claim := rfl
@[simp] theorem State.setPanel_sensor (s : State) (v : Panel) : (s.setPanel v).sensor = s.sensor := rfl
@[simp] theorem State.setPanel_crane (s : State) (v : Panel) : (s.setPanel v).crane = s.crane := rfl
@[simp] theorem State.setPanel_lines (s : State) (v : Panel) : (s.setPanel v).lines = s.lines := rfl
@[simp] theorem State.setPanel_pump (s : State) (v : Panel) : (s.setPanel v).pump = s.pump := rfl
@[simp] theorem State.setPanel_report (s : State) (v : Panel) : (s.setPanel v).report = s.report := rfl
@[simp] theorem State.setPanel_journal (s : State) (v : Panel) : (s.setPanel v).journal = s.journal := rfl
@[simp] theorem State.setPanel_memory (s : State) (v : Panel) : (s.setPanel v).memory = s.memory := rfl
@[simp] theorem State.setPanel_panel (s : State) (v : Panel) : (s.setPanel v).panel = v := rfl

end Sys2Proof.Machine
end

