-- ==== Sys2Proof/Laws/Ops.lean ====
section
/-! SUPPORT. What each shared operation can do: the blocks it may change, and the values it leaves. A proof about a
command cites these and never unfolds the operation. -/

namespace Sys2Proof.Machine

open Sys2Proof

/-! ### Frames -/

theorem onlyChanges_refl (bs : List Block) (s : State) : onlyChanges bs s s := by
  intro b _
  cases b <;> rfl

theorem sameBlock_trans {b : Block} {s t u : State} (h : sameBlock b s t) (k : sameBlock b t u) :
    sameBlock b s u := by
  cases b <;> exact Eq.trans k h

theorem onlyChanges_trans {bs : List Block} {s t u : State} (h : onlyChanges bs s t) (k : onlyChanges bs t u) :
    onlyChanges bs s u := fun b hb => sameBlock_trans (h b hb) (k b hb)

theorem onlyChanges_mono {bs cs : List Block} {s t : State} (h : onlyChanges bs s t) (k : ∀ b ∈ bs, b ∈ cs) :
    onlyChanges cs s t := fun b hb => h b (fun m => hb (k b m))

/-- Two frames in a row. -/
theorem onlyChanges_append {bs cs : List Block} {s t u : State} (h : onlyChanges bs s t)
    (k : onlyChanges cs t u) : onlyChanges (bs ++ cs) s u :=
  onlyChanges_trans (onlyChanges_mono h (by simp_all)) (onlyChanges_mono k (by simp_all))

theorem evalAlarm_frame (s : State) : onlyChanges [.report] s (evalAlarm s) := by
  intro b hb
  cases b <;> simp_all [sameBlock, evalAlarm]

theorem latch_frame (k : EventKind) (s : State) : onlyChanges [.report] s (latch k s) := by
  intro b hb
  unfold latch
  split <;> cases b <;> simp_all [sameBlock, evalAlarm]

theorem latchIf_frame (c : Bool) (k : EventKind) (s : State) : onlyChanges [.report] s (latchIf c k s) := by
  unfold latchIf
  split
  · exact latch_frame k s
  · exact onlyChanges_refl _ s

/-- Outside HALT a latch leaves the kinds with one more, and the alarm condition of them (R177, R180). -/
theorem latch_report {k : EventKind} {s : State} (h : s.station.state ≠ .halt) :
    (latch k s).report = { s.report with
      latched := insertKind k s.report.latched
      alarm := alarmHolds { s.report with latched := insertKind k s.report.latched } } := by
  simp only [latch, h, if_false]
  rfl

theorem markDirty_frame (s : State) : onlyChanges [.solver] s (markDirty s) := by
  intro b hb
  cases b <;> simp_all [sameBlock, markDirty]

theorem evalPermits_frame (s : State) : onlyChanges [.crane] s (evalPermits s) := by
  intro b hb
  cases b <;> simp_all [sameBlock, evalPermits]

theorem evalClean_frame (s : State) : onlyChanges [.view, .solver] s (evalClean s) := by
  intro b hb
  unfold evalClean
  split <;> cases b <;> simp_all [sameBlock, markDirty]

theorem shareCause_frame (s : State) : onlyChanges [.link] s (shareCause s) := by
  intro b hb
  unfold shareCause
  split <;> cases b <;> simp_all [sameBlock]

theorem wake_frame (s : State) : onlyChanges activityBlocks s (wake s) :=
  onlyChanges_trans (t := s.setStation { s.station with
      state := .run, since := s.now, quietStart := if quietConditions s then some s.now else none })
    (by intro b hb; cases b <;> simp_all [sameBlock, activityBlocks])
    (onlyChanges_trans (onlyChanges_mono (latch_frame .wake _) (by simp [activityBlocks]))
      (by intro b hb; cases b <;> simp_all [wake, sameBlock, activityBlocks]))

theorem activity_frame (s : State) : onlyChanges activityBlocks s (activity s) := by
  unfold activity
  split
  · exact onlyChanges_trans (by intro b hb; cases b <;> simp_all [sameBlock, activityBlocks]) (wake_frame _)
  · intro b hb
    cases b <;> simp_all [sameBlock, activityBlocks]
  · exact onlyChanges_refl _ s

theorem watchQuiet_frame (s : State) : onlyChanges activityBlocks s (watchQuiet s) := by
  unfold watchQuiet
  split
  · split
    · exact onlyChanges_refl _ s
    · exact wake_frame s
  · split <;> (intro b hb; cases b <;> simp_all [sameBlock, activityBlocks])
  · exact onlyChanges_refl _ s

/-! ### Time passes -/

/-- The blocks the passing of time may change: the station's, with the own timer. -/
def timeBlocks : List Block := [.station]

theorem elapse_frame (dt : Nat) (s : State) : onlyChanges timeBlocks s (elapse dt s) := by
  intro b hb
  cases b <;> simp_all [sameBlock, elapse, timeBlocks]

@[simp] theorem elapse_zero (s : State) : elapse 0 s = s := by
  simp [elapse, State.setStation]

@[simp] theorem elapse_timer (dt : Nat) (s : State) : (elapse dt s).station.timer = s.station.timer + dt := rfl

/-- No activity event takes a station into QUIET, and it takes one out of QUIET alone. -/
theorem activity_state (s : State) :
    (activity s).station.state = if s.station.state = .quiet then .run else s.station.state := by
  unfold activity wake latch evalAlarm
  split <;> simp_all

/-! ### The transmit queue -/

theorem queueFixed_frame (f : Fixed) (s : State) : onlyChanges [.link, .report] s (queueFixed f s) := by
  unfold queueFixed
  split
  · intro b hb
    cases b <;> simp_all [sameBlock]
  · exact onlyChanges_mono (latch_frame _ s) (by simp)

/-- A fixed frame stands behind the last one while fewer than 32 wait (R113). -/
theorem queueFixed_room {f : Fixed} {s : State} (h : s.link.queue.length < 32) :
    queueFixed f s = s.setLink { s.link with queue := s.link.queue ++ [f] } := if_pos h

theorem queueFixed_full {f : Fixed} {s : State} (h : ¬ s.link.queue.length < 32) :
    queueFixed f s = latch .linkTx s := if_neg h

theorem queueRollcall_frame (r : Bool) (s : State) : onlyChanges [.link, .report] s (queueRollcall r s) := by
  unfold queueRollcall
  split
  · intro b hb
    cases b <;> simp_all [sameBlock]
  · exact queueFixed_frame _ s

theorem queueTag_frame (b : TagBody) (s : State) : onlyChanges [.link, .report] s (queueTag b s) :=
  onlyChanges_trans (by intro c hc; cases c <;> simp_all [sameBlock]) (queueFixed_frame _ _)

theorem tagChange_frame (before after : Option Item) (s : State) :
    onlyChanges [.link, .report] s (tagChange before after s) := by
  unfold tagChange
  split
  · exact queueTag_frame _ s
  · split
    · exact queueTag_frame _ s
    · exact onlyChanges_refl _ s

/-! ### Changes of the item list -/

/-- The blocks the effects of a change of the item list reach (R41). -/
def effectBlocks : List Block := [.solver, .station, .link, .report]

theorem itemEffects_frame (before after : Option Item) (s : State) :
    onlyChanges effectBlocks s (itemEffects before after s) := by
  unfold itemEffects
  refine onlyChanges_trans (onlyChanges_mono (tagChange_frame before after s) (by simp [effectBlocks])) ?_
  refine onlyChanges_trans (onlyChanges_mono (markDirty_frame _) (by simp [effectBlocks])) ?_
  refine onlyChanges_trans (onlyChanges_mono (shareCause_frame _) (by simp [effectBlocks])) ?_
  exact onlyChanges_mono (activity_frame _) (by simp [effectBlocks, activityBlocks])

theorem itemEffects_stowage (before after : Option Item) (s : State) :
    (itemEffects before after s).stowage = s.stowage :=
  itemEffects_frame before after s .stowage (by decide)

theorem itemEffects_trial (before after : Option Item) (s : State) :
    (itemEffects before after s).trial = s.trial :=
  itemEffects_frame before after s .trial (by decide)

@[simp] theorem addRecord_stowage (i : Item) (s : State) :
    (addRecord i s).stowage = { s.stowage with items := s.stowage.items ++ [i] } :=
  itemEffects_stowage _ _ _

@[simp] theorem addRecord_trial (i : Item) (s : State) : (addRecord i s).trial = s.trial :=
  itemEffects_trial _ _ _

@[simp] theorem changeRecord_stowage (i : Item) (s : State) :
    (changeRecord i s).stowage = { s.stowage with items := replaceItem i s.stowage.items } := by
  unfold changeRecord
  rw [itemEffects_stowage]
  split <;> rfl

@[simp] theorem removeRecord_stowage (n : Nat) (s : State) :
    (removeRecord n s).stowage = { s.stowage with items := removeItem n s.stowage.items } := by
  unfold removeRecord
  rw [itemEffects_stowage]
  rfl

@[simp] theorem removeRecord_trial (n : Nat) (s : State) : (removeRecord n s).trial = voidMoves n s.trial := by
  unfold removeRecord
  rw [itemEffects_trial]
  rfl

/-- A change voids the MOVE entries of an item that leaves PLANNED_IN, and no others (R48). -/
theorem changeRecord_trial (i : Item) (s : State) :
    (changeRecord i s).trial =
      if (findItem i.number s.stowage.items).any (fun b => decide (b.state = .plannedIn)) &&
        decide (i.state ≠ .plannedIn) then voidMoves i.number s.trial else s.trial := by
  unfold changeRecord
  rw [itemEffects_trial]
  split <;> simp_all

/-! ### The panel port and retained memory -/

theorem respond_frame (code : Nat) (seq : Byte) (r : ResultCode) (body : ResponseBody) (s : State) :
    onlyChanges [.panel] s (respond code seq r body s) := by
  intro b hb
  cases b <;> simp_all [sameBlock, respond]

@[simp] theorem respond_panel (code : Nat) (seq : Byte) (r : ResultCode) (body : ResponseBody) (s : State) :
    (respond code seq r body s).panel = ⟨s.panel.inProgress, s.panel.out ++ [⟨code, seq, r, body⟩]⟩ := rfl

theorem completeWrite_frame (s : State) : onlyChanges [.memory, .panel] s (completeWrite s) := by
  unfold completeWrite
  split
  · exact onlyChanges_refl _ s
  · split <;> (intro b hb; cases b <;> simp_all [sameBlock])

/-- With no write in progress, nothing is to complete. -/
theorem completeWrite_idle {s : State} (h : s.memory.writing = none) : completeWrite s = s := by
  simp [completeWrite, h]

/-- A write that completes leaves its contents with their check, and no write in progress (R194). -/
theorem completeWrite_memory (s : State) :
    (completeWrite s).memory = match s.memory.writing with
      | none => s.memory
      | some w => retainedWhole w.contents := by
  rcases h : s.memory.writing with _ | w
  · simp [completeWrite, h]
  · rcases k : w.response with _ | r <;> simp [completeWrite, h, k]

/-- After a write has completed none is in progress. -/
@[simp] theorem completeWrite_writing (s : State) : (completeWrite s).memory.writing = none := by
  rw [completeWrite_memory]
  split
  · assumption
  · rfl

theorem beginWrite_frame (r : Option Response) (s : State) : onlyChanges [.memory, .panel] s (beginWrite r s) :=
  onlyChanges_trans (completeWrite_frame s) (by intro b hb; cases b <;> simp_all [sameBlock, beginWrite])

theorem acceptWrite_frame (code : Nat) (seq : Byte) (body : ResponseBody) (s : State) :
    onlyChanges [.memory, .panel] s (acceptWrite code seq body s) :=
  onlyChanges_trans (beginWrite_frame (some ⟨code, seq, .accepted, body⟩) s)
    (by intro b hb; cases b <;> simp_all [sameBlock, acceptWrite, holdRequest])

/-- With no write in progress, a write holds the list and the journal as they stand, and its response waits. -/
theorem acceptWrite_idle {code : Nat} {seq : Byte} {body : ResponseBody} {s : State}
    (h : s.memory.writing = none) :
    (acceptWrite code seq body s).memory =
        ⟨s.memory.contents, s.memory.check, some ⟨⟨s.stowage.items, s.journal⟩, some ⟨code, seq, .accepted, body⟩⟩⟩ ∧
      (acceptWrite code seq body s).panel = ⟨some ⟨code, seq⟩, s.panel.out⟩ := by
  simp [acceptWrite, beginWrite, completeWrite, h, holdRequest]

/-- Whatever write was in progress, an accepted change waits in a write of the list and the journal. -/
theorem acceptWrite_waits (code : Nat) (seq : Byte) (body : ResponseBody) (s : State) :
    (acceptWrite code seq body s).memory.writing =
        some ⟨⟨s.stowage.items, s.journal⟩, some ⟨code, seq, .accepted, body⟩⟩ ∧
      (acceptWrite code seq body s).panel.inProgress = some ⟨code, seq⟩ := by
  have h := completeWrite_frame s
  have hs : (completeWrite s).stowage = s.stowage := h .stowage (by decide)
  have hj : (completeWrite s).journal = s.journal := h .journal (by decide)
  simp [acceptWrite, beginWrite, holdRequest, hs, hj]

/-- A request that its state admits, with none in progress, reaches its owner after the activity event (R187, R188). -/
theorem request_admitted {code : Nat} {seq : Byte} {owner : State → State} {s : State} (h : admits code s) :
    request code seq owner s = owner (activity s) := by
  obtain ⟨hi, hp, ha⟩ := h
  have hpanel : (activity s).panel = s.panel := activity_frame s .panel (by decide)
  have hst : admittedIn (activity s).station.state code = true := by
    rw [activity_state]
    split
    · rfl
    · exact ha
  simp [request, hi, hpanel, hp, hst]

/-- The same for an owner that uses the item list: a write of the list in progress is complete (R38). -/
theorem requestUsingList_admitted {code : Nat} {seq : Byte} {owner : State → State} {s : State}
    (h : admits code s) : requestUsingList code seq owner s = owner (completeWrite (activity s)) :=
  request_admitted h

theorem asTaken_frame (dt : Nat) (s : State) : onlyChanges activityBlocks s (asTaken dt s) :=
  onlyChanges_trans (onlyChanges_mono (elapse_frame dt s) (by simp [timeBlocks, activityBlocks])) (activity_frame _)

theorem asUsed_frame (dt : Nat) (s : State) : onlyChanges [.memory, .panel] (asTaken dt s) (asUsed dt s) :=
  completeWrite_frame _

/-- A request while another is in progress is answered BUSY (R187). -/
theorem request_busy {code : Nat} {seq : Byte} {owner : State → State} {s : State} {p : InProgress}
    (hi : takesInputs s = true) (hp : s.panel.inProgress = some p) :
    request code seq owner s = respond code seq .busy .empty (activity s) := by
  have hpanel : (activity s).panel = s.panel := activity_frame s .panel (by decide)
  simp [request, hi, hpanel, hp]

theorem request_pending {code : Nat} {seq : Byte} {owner : State → State} {s : State}
    (hi : takesInputs s = false) : request code seq owner s = s := by
  simp [request, hi]

/-- What a retained check that passes keeps, and that one that fails leaves nothing (R194). -/
theorem retainedAtStart_cases (m : RetainedMemory) :
    (retainedPasses m = true → retainedAtStart m = (⟨m.contents.items.map resetItem, m.contents.journal⟩, true)) ∧
      (retainedPasses m = false → retainedAtStart m = (⟨[], .cleared⟩, false)) := by
  constructor <;> intro h <;> simp [retainedAtStart, h]

/-! ### The journal, the claim, the pumps -/

theorem offerRecord_frame (r : JournalRecord) (s : State) :
    onlyChanges [.journal, .report] s (offerRecord r s) := by
  unfold offerRecord
  split
  · intro b hb
    cases b <;> simp_all [sameBlock]
  · exact onlyChanges_mono (latch_frame _ s) (by simp)

theorem endMovement_frame (b : DoneBody) (s : State) :
    onlyChanges [.link, .report, .journal] s (endMovement b s) :=
  onlyChanges_trans (onlyChanges_mono (queueFixed_frame _ s) (by simp))
    (onlyChanges_mono (offerRecord_frame _ _) (by simp))

theorem changeClaim_frame (c : ClaimUnit) (s : State) :
    onlyChanges [.claim, .solver, .crane, .station, .link, .report] s (changeClaim c s) := by
  unfold changeClaim
  refine onlyChanges_trans (t := markDirty (s.setClaim c)) ?_ ?_
  · intro b hb
    cases b <;> simp_all [sameBlock, markDirty]
  · refine onlyChanges_trans (t := if c.state = .committed then markDirty (s.setClaim c) else
      (markDirty (s.setClaim c)).setCrane { (markDirty (s.setClaim c)).crane with overload := false }) ?_ ?_
    · split
      · exact onlyChanges_refl _ _
      · intro b hb
        cases b <;> simp_all [sameBlock]
    · refine onlyChanges_trans (onlyChanges_mono (shareCause_frame _) (by simp)) ?_
      refine onlyChanges_trans (onlyChanges_mono (watchQuiet_frame _) (by simp [activityBlocks])) ?_
      exact onlyChanges_mono (evalPermits_frame _) (by simp)

/-- The claim unit after a change of the own claim is the one given. -/
@[simp] theorem changeClaim_claim (c : ClaimUnit) (s : State) : (changeClaim c s).claim = c := by
  have h := fun (u : State) => onlyChanges_trans (onlyChanges_mono (shareCause_frame u) (cs := [.crane, .station, .link, .report]) (by simp))
    (onlyChanges_trans (onlyChanges_mono (watchQuiet_frame _) (by simp [activityBlocks]))
      (onlyChanges_mono (evalPermits_frame _) (by simp))) .claim (by decide)
  unfold changeClaim
  refine Eq.trans (h _) ?_
  split <;> rfl

/-- Looking at quiet operation moves no timer. -/
@[simp] theorem watchQuiet_timer (s : State) : (watchQuiet s).station.timer = s.station.timer := by
  unfold watchQuiet wake latch evalAlarm
  repeat' split
  all_goals rfl

theorem unwake_frame (b : QuietBefore) (s : State) : onlyChanges activityBlocks s (unwake b s) := by
  intro c hc
  unfold unwake evalAlarm
  split <;> cases c <;> simp_all [sameBlock, activityBlocks]

theorem takeBack_frame (s : State) : onlyChanges activityBlocks s (takeBack s) := by
  have h : ∀ v, onlyChanges activityBlocks s (s.setStation v) := fun v c hc => by
    cases c <;> simp_all [sameBlock, activityBlocks]
  unfold takeBack
  split
  · exact onlyChanges_refl _ s
  · dsimp only
    split
    · exact h _
    · split
      · exact h _
      · split
        · exact onlyChanges_trans (h _) (unwake_frame _ _)
        · exact h _

/-- A taken-back wake leaves QUIET as it stood, and WAKE latched only where it was before (R121, R173). -/
theorem unwake_values (b : QuietBefore) (s : State) :
    (unwake b s).station = { s.station with state := .quiet, since := b.since, quietStart := b.quietStart } ∧
      (unwake b s).link = { s.link with placeholder := !s.link.wakeCause, wakeCause := false } ∧
      (unwake b s).report.latched =
        if b.wake then s.report.latched else s.report.latched.filter (fun k => decide (k ≠ .wake)) := by
  unfold unwake evalAlarm
  split <;> simp_all

theorem evalOutputs_frame (p : Pump) (s : State) :
    onlyChanges [.pump, .station, .link, .report] s (evalOutputs p s) := by
  unfold evalOutputs
  refine onlyChanges_trans (t := s.setPump (outputsFor s.now (deadInterval s) p))
    (by intro b hb; cases b <;> simp_all [sameBlock]) ?_
  refine onlyChanges_mono (bs := activityBlocks) ?_ (by simp [activityBlocks])
  dsimp only
  split
  · exact watchQuiet_frame _
  · split
    · exact onlyChanges_trans (takeBack_frame _) (watchQuiet_frame _)
    · exact onlyChanges_trans (by intro b hb; cases b <;> simp_all [sameBlock, activityBlocks]) (watchQuiet_frame _)

/-- Every evaluation leaves the outputs the table gives (R173). -/
@[simp] theorem evalOutputs_pump (p : Pump) (s : State) :
    (evalOutputs p s).pump = outputsFor s.now (deadInterval s) p := by
  have h : ∀ u v : State, onlyChanges activityBlocks u v → v.pump = u.pump := fun u v k => k .pump (by decide)
  unfold evalOutputs
  dsimp only
  split
  · exact h _ _ (watchQuiet_frame _)
  · split
    · exact (h _ _ (watchQuiet_frame _)).trans (h _ _ (takeBack_frame _))
    · exact h _ _ (watchQuiet_frame _)

/-- A stopped output is INACTIVE, its off time now or as it stood (R173). -/
theorem stopOutput_cases (now : Nat) (o : Output) :
    stopOutput now o = ⟨.inactive, now, none⟩ ∧ o.out = .active ∧ o.due ≠ some now ∨
      stopOutput now o = ⟨.inactive, o.off, none⟩ ∧ ¬ (o.out = .active ∧ o.due ≠ some now) := by
  unfold stopOutput
  split
  · exact .inl ⟨rfl, ‹_›⟩
  · exact .inr ⟨rfl, ‹_›⟩

@[simp] theorem stopOutput_out (now : Nat) (o : Output) : (stopOutput now o).out = .inactive := rfl

@[simp] theorem stopOutput_due (now : Nat) (o : Output) : (stopOutput now o).due = none := rfl

/-- A started output keeps its off time; it is ACTIVE already, becomes so past the other's dead interval, or waits
(R173). -/
theorem startOutput_cases (now dead : Nat) (o other : Output) :
    o.out = .active ∧ startOutput now dead o other = o ∨
      o.out ≠ .active ∧ other.out = .inactive ∧ other.off + dead ≤ now ∧ startOutput now dead o other =
        ⟨.active, o.off, if o.out = .waiting then some (other.off + dead) else none⟩ ∨
      o.out ≠ .active ∧ ¬ (other.out = .inactive ∧ other.off + dead ≤ now) ∧
        startOutput now dead o other = ⟨.waiting, o.off, none⟩ := by
  unfold startOutput
  split
  · exact .inl ⟨‹_›, rfl⟩
  · split
    · exact .inr (.inl ⟨‹_›, (‹_ ∧ _› : _ ∧ _).1, (‹_ ∧ _› : _ ∧ _).2, rfl⟩)
    · exact .inr (.inr ⟨‹_›, ‹_›, rfl⟩)

@[simp] theorem withOutputs_ps (p : Pump) (a b : Output) : (withOutputs p a b).ps = a.out := rfl

@[simp] theorem withOutputs_sp (p : Pump) (a b : Output) : (withOutputs p a b).sp = b.out := rfl

/-- An evaluation leaves at most one output ACTIVE (R173). -/
theorem outputsFor_apart (now dead : Nat) (p : Pump) :
    ¬ ((outputsFor now dead p).ps = .active ∧ (outputsFor now dead p).sp = .active) := by
  unfold outputsFor
  split <;> simp

theorem frameFailure_frame (s : State) : onlyChanges [.view, .solver, .report] s (frameFailure s) :=
  onlyChanges_trans (t := s.setView { s.view with failureAt := some s.now, windowOpen := true })
    (by intro b hb; cases b <;> simp_all [sameBlock])
    (onlyChanges_trans (onlyChanges_mono (latch_frame _ _) (by simp))
      (onlyChanges_mono (evalClean_frame _) (by simp)))

/-- The frame-check window is open from a failure on (R98). -/
theorem frameFailure_view (s : State) :
    (frameFailure s).view.failureAt = some s.now ∧ (frameFailure s).view.windowOpen = true := by
  have h := latch_frame .frameCheck (s.setView { s.view with failureAt := some s.now, windowOpen := true }) .view
    (by decide)
  simp only [sameBlock] at h
  unfold frameFailure evalClean
  split <;> simp [h, markDirty]

/-! ### What the spec's own words of a shown value say of the model's reading -/

/-- The tanks of the two levels (R123, R138). -/
theorem tanksHeld_eq (s : State) : tanksHeld s = tankTerms s := by
  unfold tanksHeld tankTerms
  cases s.pump.levels <;> rfl

/-- The record a READ or a SHARE shows (R123, R126). -/
theorem recordMarked_eq (s : State) : recordMarked s = s.claim.record.map (claimNow s.stowage.items) := rfl

/-- The hook's term (R110, R123). -/
theorem hookHeld_eq (s : State) : hookHeld s = ownHook s := by
  unfold hookHeld ownHook hookTerm hookPosition
  cases s.crane.held <;> simp

/-- The state of a peer (R92, R95). -/
theorem peerStateShown_eq (s : State) (e : PeerEntry) : peerStateShown s e = stateAt s.period s.now e := by
  rcases e with ⟨n, roll, i, share, c, st, h⟩
  have hm : ∀ p : Nat, h + p * 40 ≤ s.now → h + p * 12 ≤ s.now := fun p k => by omega
  have hn : ∀ p : Nat, h + p * 10 ≤ s.now → h + p * 3 ≤ s.now := fun p k => by omega
  unfold peerStateShown stateAt staleTime lostTime peerPeriod peerQuiet
  rcases roll with _ | r <;> rcases share with _ | i <;> cases st <;>
    simp [and_iff_left_of_imp (hn _)] <;> rcases i with ⟨_, _ | _, _, _, _, _⟩ <;>
    simp [and_iff_left_of_imp (hn _), and_iff_left_of_imp (hm _)]

/-! ### The first failure of a check (R4 to R15) -/

/-- The first failing condition, counted from `n`. -/
theorem firstFail_eq_some {n d : Nat} {bs : List Bool} :
    firstFail n bs = some d ↔ ∃ as cs, bs = as ++ false :: cs ∧ d = n + as.length ∧ ∀ b ∈ as, b = true := by
  induction bs generalizing n with
  | nil => simp [firstFail]
  | cons b bs ih =>
    cases b with
    | false =>
      constructor
      · intro h
        exact ⟨[], bs, rfl, by simpa [firstFail] using h.symm, by simp⟩
      · rintro ⟨_ | ⟨a, as⟩, cs, h, rfl, hb⟩
        · simp [firstFail]
        · simp only [List.cons_append, List.cons.injEq] at h
          exact absurd (hb a (by simp)) (by simp [← h.1])
    | true =>
      simp only [firstFail, if_true, ih]
      constructor
      · rintro ⟨as, cs, rfl, rfl, hb⟩
        exact ⟨true :: as, cs, rfl, by simp; omega, by simpa using hb⟩
      · rintro ⟨_ | ⟨a, as⟩, cs, h, rfl, hb⟩
        · simp at h
        · simp only [List.cons_append, List.cons.injEq] at h
          exact ⟨as, cs, h.2, by simp; omega, fun c hc => hb c (by simp [hc])⟩

@[simp] theorem failsAt_nil {o : Option Nat} : failsAt [] o ↔ o = none := by
  constructor
  · intro h
    cases o with
    | none => rfl
    | some d => simpa using (h d).1 rfl
  · rintro rfl d
    simp

/-- A check fails at its first condition, or as those behind it do. -/
theorem failsAt_cons {d : Nat} {p : Prop} {l : List (Nat × Prop)} {o : Option Nat} :
    failsAt ((d, p) :: l) o ↔ (p ∧ failsAt l o) ∨ (¬ p ∧ o = some d) := by
  have key : ∀ e, (∃ as q bs, (d, p) :: l = as ++ (e, q) :: bs ∧ ¬ q ∧ ∀ r ∈ as, r.2) ↔
      (¬ p ∧ e = d) ∨ (p ∧ ∃ as q bs, l = as ++ (e, q) :: bs ∧ ¬ q ∧ ∀ r ∈ as, r.2) := by
    intro e
    constructor
    · rintro ⟨_ | ⟨a, as⟩, q, bs, h, hq, ha⟩
      · simp only [List.nil_append, List.cons.injEq, Prod.mk.injEq] at h
        exact .inl ⟨h.1.2 ▸ hq, h.1.1.symm⟩
      · simp only [List.cons_append, List.cons.injEq] at h
        exact .inr ⟨by simpa [← h.1] using ha a (by simp), as, q, bs, h.2, hq, fun r hr => ha r (by simp [hr])⟩
    · rintro (⟨hp, rfl⟩ | ⟨hp, as, q, bs, rfl, hq, ha⟩)
      · exact ⟨[], p, l, rfl, hp, by simp⟩
      · exact ⟨(d, p) :: as, q, bs, rfl, hq, by simpa [hp] using ha⟩
  unfold failsAt
  simp only [key]
  by_cases hp : p
  · simp [hp]
  · simp only [hp, not_false_eq_true, true_and, false_and, or_false, false_or]
    constructor
    · exact fun h => (h d).2 rfl
    · rintro rfl e
      simp [eq_comm]

end Sys2Proof.Machine
end

