-- ==== Sys2Proof/Tests/Slice0.lean ====
section
/-! SUPPORT. Tests: the worked cases of spec/ (each names its source), an ill-formed term for each check of
WellFormed, and for every statement of Obligations a witness: states and operands that meet its hypotheses. -/

namespace Sys2Proof.Tests

open Sys2Proof Sys2Proof.Machine

-- One theorem after the other: each is evaluated by the kernel, and a thread for each would not fit the memory.
set_option Elab.async false

/-! ### Fixtures: a small ship, a CRANE station 4, a TANK station 9 and a DESK station 2 -/

/-- Two hull rows, one check section, a hold of station 4, two tanks of station 9, a deck area of station 2. -/
def ship : TableImage :=
  { particulars := ⟨120000, 14000, 7500, 4500, -1000, 2000, 1500, 90, 120, 200, 15, 300, 20, 20, 500, 200, 300⟩
    rows := [⟨6000, 90000, 8900, 61200, 58400, 148000, [⟨30000, 24000⟩]⟩,
      ⟨6100, 91800, 8880, 61150, 58300, 149000, [⟨30200, 24100⟩]⟩]
    lightship := ⟨42000, ⟨55000, 0, 8200⟩, [⟨19000, 520000000⟩]⟩
    sections := [⟨60000, 6000, 1000, 150000, 20000, 100000, 15000⟩]
    compartments := [⟨some .hold, 4, 52000, 70000, -11000, 11000, 1200, 12000, some 60, 80000, none⟩,
      ⟨some .tank, 9, 40000, 50000, -10000, 0, 800, 20000, none, 8000,
        some ⟨4000, 10000, 800, 48000, -7500, 9000000, 500, 9500⟩⟩,
      ⟨some .tank, 9, 40000, 50000, 0, 10000, 800, 20000, none, 8000,
        some ⟨4000, 10000, 800, 48000, 7500, 9000000, 500, 9500⟩⟩,
      ⟨some .deckArea, 2, 20000, 36000, -10000, 10000, 0, 12000, some 60, 80000, none⟩]
    segregation := ⟨List.replicate 2 (List.replicate 9 0) ++ [[0, 0, 2, 0, 0, 0, 0, 0, 0]] ++
      List.replicate 6 (List.replicate 9 0), 3000, 6000, 12000⟩ }

def input : LineEntry := ⟨.plain, some .input⟩

/-- Station 4, with the crane data of the example of section 8.6. -/
def craneSection : StationSection :=
  ⟨4, some .crane, 0, 0, some .s4, 2500, ⟨1, 2, 3⟩, [⟨0, 3⟩, ⟨7, 0⟩, ⟨0, 0⟩, ⟨0, 0⟩],
    some ⟨62000, 9000, 32000, 4000, 30000, 2500, 50, 20, 100, 40, 800, 16, 50, 500, 10, some true, some 20⟩, none,
    [⟨.plain, some .hoistPermit⟩, ⟨.inverted, some .alarm⟩, ⟨.plain, some .localStop⟩,
      ⟨.plain, some .setdownButton⟩] ++ List.replicate 8 input⟩

/-- Station 9, with the pump data of the example of section 9.11. -/
def tankSection : StationSection :=
  ⟨9, some .tank, 0, 0, some .off, 0, ⟨0, 0, 0⟩, List.replicate 4 ⟨0, 0⟩, none, some ⟨2, 3, 20, 5, 6, some true, 50⟩,
    [⟨.plain, some .pumpPs⟩, ⟨.plain, some .pumpSp⟩] ++ List.replicate 10 input⟩

/-- Station 2, with nothing but inputs. -/
def deskSection : StationSection :=
  ⟨2, some .desk, 500, 400, some .s60, 0, ⟨0, 0, 0⟩, List.replicate 4 ⟨0, 0⟩, none, none, List.replicate 12 input⟩

/-- A station whose store is LOADED, in a state, with its own timer at 10,000 ms. -/
def station (c : StationSection) (st : StationState) : State :=
  { State.reset with
    station := { state := st, timer := 10000, since := 9000, cause := .powerOn, retainedPassed := true
                 listenAt := some 5000, quietStart := none, quietBefore := none, frozenAt := none }
    table := { readSoFar (some ⟨4, 2, 1, 4⟩) (some (ship, [])) (some 0#32) (some (c, [])) 0 0 with
      contents := .loaded, sectionCheck := some 0#32, identity := some 7#32, number := some c.number.toNat }
    link := { Link.cleared 0 [] with startFlag := false, shareStart := some 9900, rotationAt := some 9500 }
    lines := ⟨true, List.replicate 12 ⟨false, 9000, false⟩, none⟩
    solver := { Solver.cleared with lastStart := some 9900 } }

def crane : State := station craneSection .run
def tank : State := station tankSection .run
def desk : State := station deskSection .run

/-- The transformer of section 2.9, before it is stowed. -/
def unit7 : Item :=
  { number := 7, label := 3107, mass := 1850, planned := ⟨61500, 2000, 3500⟩, comp := 1, length := 8000
    breadth := 4500, cls := some 3, state := .plannedIn, direction := none, stowed := none, landing := none }

def inState (st : ItemState) : Item := { unit7 with state := st }
def stowed7 : Item := { unit7 with state := .stowed, stowed := some ⟨61500, 2000, 3500⟩ }
def plannedOut7 : Item := { stowed7 with state := .plannedOut }
def slung7 : Item := { unit7 with state := .slung, direction := some .outbound }
def unresolved7 : Item := inState .unresolved
def landed7 (d : Direction) (aboard : Bool) (p : Point) : Item :=
  { unit7 with state := .landed, direction := some d, landing := some ⟨p, aboard⟩ }

def withItems (is : List Item) (s : State) : State := s.setStowage { s.stowage with items := is }
def withTrial (es : List TrialEntry) (s : State) : State := s.setTrial es
def queued (c : Instr) (s : State) : State := s.setPending [c]

/-- Claim 12 of section 8.6, in a phase. -/
def record12 (p : Option ClaimPhase) : ClaimRecord :=
  { station := 4, number := 12, cls := 1, phase := p, item := 7, mass := 1890, a1 := 768, a2 := 256
    maxRadius := 24000, worst := ⟨62000, 33000, 32000⟩, source := none }

def claimIn (st : ClaimState) : ClaimUnit :=
  { ClaimUnit.cleared with
    state := st, nextNumber := 13
    record := if st = .none then none else some (record12 (match st with
      | .announced => some .announced
      | .committed => some .committed
      | _ => none))
    holdExpiry := if st = .announced then some 10400 else none
    backoffExpiry := if st = .backoff then some 11000 else none
    commitTime := if st = .committed then some 9500 else none }

def withClaim (c : ClaimUnit) (s : State) : State := s.setClaim c

def hook (load : Int) (slew : Nat) : HookValues := ⟨load, slew, 7000, 4000⟩
def withHook (load : Int) (s : State) : State :=
  (s.setCrane { s.crane with held := some (hook load 768), verdict := .green }).setSensor
    { s.sensor with port := .fresh, lastRecord := some 10000 }

def share0 : ShareInfo := ⟨false, false, true, zeroSum [60000], none, zeroSum [60000]⟩
def roll0 : RollInfo := ⟨.crane, 7#32, 500, 2500, ⟨1, 2, 3⟩, .powerOn⟩
def peer6 : PeerEntry := ⟨6, some roll0, .matching, some share0, none, .fresh, 9000⟩
def withPeers (es : List PeerEntry) (s : State) : State := s.setView { s.view with entries := es }

/-- A field of the next state of a command. -/
def after {α : Type} (c : Instr) (s : State) (f : State → α) : Option α :=
  match exec c s with
  | .next t => some (f t)
  | _ => none

/-- The result of the last response formed. -/
def lastResult (s : State) : Option ResultCode := s.panel.out.getLast?.map (·.result)

/-- A frame in transmission as a byte sequence. -/
def bytesOf (source : Nat) (b : FrameBody) : List Byte := encodeFrame ⟨source, b⟩

/-! ### Decode: the table gives no row bits -/

theorem test_decode_none : decodeTableWord 0 0 = none := by decide

theorem test_withFetchWord_none : State.reset.withFetchWord 16 5 = State.reset := by decide +kernel

/-! ### Ill-formed terms -/

theorem test_wellFormed_image : wellFormed (.memoryRead 0 (.image ship [1])) = true ∧
    wellFormed (.memoryRead 0 (.image { ship with sections := [] } [1])) = false ∧
    wellFormed (.memoryRead 0 (.image ship [])) = false := by decide +kernel

theorem test_wellFormed_section : wellFormed (.memoryRead 0 (.stationSection craneSection [1])) = true ∧
    wellFormed (.memoryRead 0 (.stationSection { craneSection with lines := [] } [1])) = false ∧
    wellFormed (.memoryRead 0 (.stationSection craneSection [])) = false := by decide +kernel

theorem test_wellFormed_lines : wellFormed (.lineLevelChange 0 12 true) = true ∧
    wellFormed (.lineLevelChange 0 13 true) = false ∧ wellFormed (.inputFilterExpiry 0 1) = true ∧
    wellFormed (.inputFilterExpiry 0 0) = false := by decide

theorem test_wellFormed_stations : wellFormed (.peerStale 0 15) = true ∧ wellFormed (.peerStale 0 16) = false ∧
    wellFormed (.peerLost 0 1) = true ∧ wellFormed (.peerLost 0 0) = false := by decide

theorem test_wellFormed_mask : wellFormed (.setMask 0 0 (some [1, 22])) = true ∧
    wellFormed (.setMask 0 0 (some [1, 1])) = false := by decide

/-- A command of one frame kind is no command of another (R107). -/
theorem test_wellFormed_frames :
    let y := bytesOf 6 (.yield 3)
    let d := bytesOf 6 (.done ⟨1, .stowed, 7, 1, 5, 1, none, none⟩)
    wellFormed (.yield 0 y) = true ∧ wellFormed (.rollcall 0 y) = false ∧ wellFormed (.share 0 y) = false ∧
      wellFormed (.claim 0 y) = false ∧ wellFormed (.yield 0 d) = false ∧ wellFormed (.done 0 d) = true ∧
      wellFormed (.done 0 y) = false ∧ wellFormed (.tag 0 y) = false ∧
      wellFormed (.frameCheckFail 0 y) = false ∧ wellFormed (.frameCheckFail 0 (y ++ [0])) = true := by
  decide +kernel

theorem test_wellFormed_idle : wellFormed (.lineIdleTimeout 0 [4, 6]) = true ∧
    wellFormed (.lineIdleTimeout 0 (bytesOf 6 (.yield 3))) = false ∧ wellFormed (.fragmentReceived 0 []) = false := by
  decide +kernel

/-- A panel record that passes its check is no invalid one, and a whole one is no fragment (R186). -/
theorem test_wellFormed_panel :
    let ok := [1, 19, 5, 0, 0, 0] ++ writeNat 2 (crc16 [1, 19, 5, 0, 0, 0]).toNat
    wellFormed (.panelRecordInvalid 0 ok) = false ∧ wellFormed (.panelRecordInvalid 0 [1, 19, 5, 0, 0, 0, 0, 0]) = true ∧
      wellFormed (.panelFragmentTimeout 0 ok) = false ∧ wellFormed (.panelFragmentTimeout 0 [1, 19]) = true ∧
      wellFormed (.panelRecordInvalid 0 [1, 19]) = false := by decide +kernel

theorem test_wellFormed_sensor :
    wellFormed (.hookRecord 0 (encodeHook ⟨0, 768, 7000, 4000, none⟩)) = true ∧
      wellFormed (.hookRecord 0 [1]) = false ∧ wellFormed (.levelsRecord 0 (encodeLevels [6000, 4000])) = true ∧
      wellFormed (.levelsRecord 0 [2, 2]) = false ∧ wellFormed (.sensorRecordDiscard 0 []) = false := by
  decide +kernel

/-! ### Worked cases: arithmetic and encodings -/

/-- The registers of R107 and R18 over the digits 1 to 9 give the check values 29B1H and CBF43926H that are known of the two
codes. -/
theorem test_crc_digits : crc16 [0x31, 0x32, 0x33, 0x34, 0x35, 0x36, 0x37, 0x38, 0x39] = 0x29B1#16 ∧
    crc32 [0x31, 0x32, 0x33, 0x34, 0x35, 0x36, 0x37, 0x38, 0x39] = 0xCBF43926#32 := by decide +kernel

/-- R1: 16.5 rounds to 17 and −16.5 to −17. -/
theorem test_rounding : roundDiv 33 2 = 17 ∧ roundDiv (-33) 2 = -17 ∧ roundDiv 33 (-2) = -17 := by decide

/-- The slew lookups of section 1.9. -/
theorem test_slew_lookups :
    [0, 128, 256, 384, 512, 768].map slewSine = [0, 23170, 32767, 23170, 0, -32767] ∧
      [0, 128, 256, 384, 512, 768].map slewCosine = [32767, 23170, 0, -23170, -32767, 0] ∧
      radiusPoint 50000 (-4000) 20000 0 384 = ⟨35858, 10142, 0⟩ := by decide +kernel

/-- The worst points of section 7.2. -/
theorem test_worst_points :
    let c := crane.craneData
    worstPoint c 128 384 24000 = ⟨62000, 33000, 32000⟩ ∧ worstPoint c 640 896 24000 = ⟨62000, -15000, 32000⟩ ∧
      worstPoint c 512 512 24000 = ⟨62000, 33000, 32000⟩ ∧
      worstPoint { c with pedestalX := 40000, pedestalY := 0 } 384 640 24000 = ⟨23029, 16971, 32000⟩ := by
  decide +kernel

/-- The hook positions of section 8.2. -/
theorem test_hook_positions :
    [(768, 7000), (0, 8000), (128, 12000), (256, 10400)].map (fun q => radiusPoint 62000 9000 q.2 0 q.1) =
      [⟨62000, 2000, 0⟩, ⟨70000, 9000, 0⟩, ⟨70485, 17485, 0⟩, ⟨62000, 19400, 0⟩] := by decide +kernel

/-- Row selection at the table edges, section 4.4. -/
theorem test_row_selection :
    let r := fun (d : Int) => HullRow.mk d d 1 0 0 1 []
    [59999, 60000, 75000, 82500, 90000, 90001].map (fun d => (selectRows [r 60000, r 75000, r 90000] d).map (·.1)) =
      [none, some 0, some 1, some 1, some 1, none] := by decide +kernel

/-- One tank term, section 9.3: a level of 6,000 mm gives 2,400 dt at 3,800 mm. -/
theorem test_tank_term : tankTerm ⟨4000, 10000, 800, 48000, 7500, 9000000, 500, 9500⟩ 6000 =
    ⟨2400, ⟨48000, 7500, 3800⟩, 9000000⟩ := by decide

/-- The sector gating of section 8.6: offsets 0, 256, 512 and 526. -/
theorem test_sector_gating : [768, 0, 256, 270].map (sectorGate 16 (record12 none)) =
    [(true, false), (true, true), (false, true), (false, true)] := by decide

/-- A YIELD frame of station 6 for claim 3 (R107, R111): kind, station, length, body, CRC-16. -/
theorem test_yield_bytes : (bytesOf 6 (.yield 3)).take 5 = [4, 6, 0, 1, 3] ∧
    frameOf (bytesOf 6 (.yield 3)) = some ⟨6, .yield 3⟩ ∧ (bytesOf 6 (.yield 3)).length = 7 := by decide +kernel

/-- A ROLLCALL has a body of 25 bytes, a TAG one of 12, a DONE one of 12 or 24 (R107, R109). -/
theorem test_frame_lengths :
    (bytesOf 6 (.rollcall ⟨.tank, 9#32, .brownOut, true, false, 500, 1, ⟨1, -2, 3⟩⟩)).length = 31 ∧
      (bytesOf 6 (.tag ⟨7, 3, true, 1, -2, 1⟩)).length = 18 ∧
      (bytesOf 6 (.done ⟨1, .stowed, 7, 1, 5, 1, none, none⟩)).length = 18 ∧
      (bytesOf 6 (.done ⟨1, .stowed, 7, 1, 5, 1, none, some ⟨1, 2, 3⟩⟩)).length = 30 := by decide +kernel

/-- The three requests of section 2.2: PRESSURE, SEGREGATION, then none, by pressure 45 and code 2 with 12,000 mm. -/
theorem test_pair_distance :
    let g : Segregation := ⟨List.replicate 9 (List.replicate 9 2), 3000, 12000, 20000⟩
    pairPasses g ⟨5, 70000, 4000, 5⟩ ⟨3, 64000, -5000, 6⟩ = false ∧
      pairPasses g ⟨5, 72000, 4000, 5⟩ ⟨3, 64000, -5000, 6⟩ = true := by decide

/-- The image of the fixtures passes every check of R19. -/
theorem test_ship_valid : [craneSection, tankSection, deskSection].map (fun c =>
    validate ⟨⟨4, 2, 1, 4⟩, ship, 0#32, 0#32, c, 0#32, 0#32⟩) = [none, none, none] := by decide +kernel

/-! ### Worked cases: one command each -/

/-- R193: a reset cause is recorded, and the own timer starts at zero (R190). -/
theorem test_powerOn : after (.powerOn 5) crane (fun t => (t.station.state, t.station.timer, t.station.cause)) =
    some (.start, 0, .powerOn) := by decide +kernel

/-- R193, R163: a brown-out applies the safe state at once, and its reset waits for the supply. -/
theorem test_brownOut : after (.brownOut 5) crane (fun t => (t.station.state, safeState t, t.power.resetPending)) =
    some (.run, true, some .brownOut) := by decide +kernel

/-- R193: the cause of a brown-out stands at its recovery, and a SLUNG item becomes UNRESOLVED (R38). -/
theorem test_supplyRecover :
    after (.supplyRecover 5) ((crane.setPower ⟨true, false, false, some .brownOut, true⟩).setMemory
      (retainedWhole ⟨[slung7], .cleared⟩)) (fun t => (t.station.cause, t.stowage.items.map (·.state))) =
      some (.brownOut, [.unresolved]) := by decide +kernel

/-- R194: contents that fail their check are lost, and the list and the journal start empty. -/
theorem test_supplyRecover_check :
    after (.supplyRecover 5) ((crane.setPower ⟨true, false, false, some .brownOut, true⟩).setMemory
      { retainedWhole ⟨[stowed7], .cleared⟩ with check := 0#32 })
      (fun t => (t.station.retainedPassed, t.stowage.items, retainedPasses t.memory)) = some (false, [], true) := by
  decide +kernel

/-- R193: a start after the supply was off is a POWER_ON. -/
theorem test_supplyOff : after (.supplyOff 5) (crane.setPower ⟨true, false, false, some .brownOut, true⟩)
    (fun t => (t.power.off, t.power.resetPending)) = some (true, some .powerOn) := by decide +kernel

theorem test_restartLine : after (.restartLine 10) crane (fun t => (t.power.line, t.power.resetPending)) =
    some (true, some .restartLine) := by decide +kernel

theorem test_restartLineRelease :
    after (.restartLineRelease 5) (crane.setPower ⟨false, false, true, some .restartLine, true⟩)
      (fun t => (t.station.state, t.station.cause)) = some (.start, .restartLine) := by decide +kernel

/-- R193: RESTART is answered first, and its reset takes place once the response has been sent. -/
theorem test_restart : after (.restart 0 ⟨9, true⟩) crane (fun t => (lastResult t, t.station.state, t.power.resetPending)) =
    some (some .accepted, .run, some .panelRestart) := by decide +kernel

theorem test_restartResponseSent :
    after (.restartResponseSent 1) (crane.setPower ⟨false, false, false, some .panelRestart, false⟩)
      (fun t => (t.station.state, t.station.cause)) = some (.start, .panelRestart) := by decide +kernel

/-- R3: a memory that ends early is MEMORY_UNREADABLE. -/
theorem test_memoryRead : after (.memoryRead 1 .ended) .reset
    (fun t => (t.station.state, t.table.fault.kind)) = some (.fault, .memoryUnreadable) := by decide +kernel

/-- R3: the third attempt unanswered for 50 ms is the last. -/
theorem test_memoryReadTimeout :
    after (.memoryReadTimeout 50) .reset (fun t => t.table.attempts) = some 1 ∧
      after (.memoryReadTimeout 50) (State.reset.setTable { TableStore.cleared with attempts := 2 })
        (fun t => t.station.state) = some .fault := by decide +kernel

/-- R191: LISTEN lasts 4,000 ms. -/
theorem test_listenTimeout :
    [3999, 4000].map (fun dt => after (.listenTimeout dt) ((station craneSection .listen).setStation
      { crane.station with state := .listen, listenAt := some 10000 }) (fun t => t.station.state)) =
      [some .listen, some .run] := by decide +kernel

/-- R119, R120: the filter of 4 s set by craneSection. -/
theorem test_quietFilter :
    [3999, 4000].map (fun dt => after (.quietFilterExpiry dt) (crane.setStation
      { crane.station with quietStart := some 10000 }) (fun t => t.station.state)) =
      [some .run, some .quiet] := by decide +kernel

/-- R186: bytes that are no request change nothing. -/
theorem test_panel_fragments : exec (.panelRecordInvalid 3 [1]) crane = .next (elapse 3 crane) ∧
    exec (.panelFragmentTimeout 3 [1]) crane = .next (elapse 3 crane) := ⟨rfl, rfl⟩

/-- R21, R28: the lowest number no record holds. -/
theorem test_addItem :
    after (.addItem 0 5 (some ⟨1, 5, ⟨60000, 0, 2000⟩, 1, 1000, 1000, none⟩))
      (withItems [{ unit7 with number := 1 }, { unit7 with number := 3 }] crane)
      (fun t => t.stowage.items.map (·.number)) = some [1, 3, 2] ∧
    after (.addItem 0 5 (some ⟨1, 61, ⟨60000, 0, 2000⟩, 1, 1000, 1000, none⟩)) crane lastResult =
      some (some .pressure) := by decide +kernel

/-- R29: a class omitted removes the item's class. -/
theorem test_amendItem :
    after (.amendItem 0 5 (some ⟨7, ⟨1, 5, ⟨60000, 0, 2000⟩, 1, 1000, 1000, none⟩⟩)) (withItems [unit7] crane)
      (fun t => t.stowage.items.map (fun i => (i.mass, i.cls))) = some [(5, none)] := by decide +kernel

theorem test_markOut : after (.markOut 0 5 (some 7)) (withItems [stowed7] crane)
    (fun t => t.stowage.items.map (·.state)) = some [.plannedOut] := by decide +kernel

theorem test_cancelItem : after (.cancelItem 0 5 (some 7)) (withItems [plannedOut7] crane)
      (fun t => t.stowage.items.map (·.state)) = some [.stowed] ∧
    after (.cancelItem 0 5 (some 7)) (withItems [unit7] crane) (fun t => t.stowage.items) = some [] := by
  decide +kernel

/-- R36, R37: a direct move ends with a DONE of claim 0 and a journal record. -/
theorem test_stowDirect : after (.stowDirect 0 5 (some ⟨7, none, none⟩)) (withItems [unit7] crane)
    (fun t => (t.stowage.items.map (·.stowed), (writeBank t.journal).map (fun r => (r.claim, r.ending, r.time)))) =
      some ([some ⟨61500, 2000, 3500⟩], [(0, .shoreStowed, 10)]) := by decide +kernel

theorem test_dischargeDirect : after (.dischargeDirect 0 5 (some 7)) (withItems [plannedOut7] crane)
    (fun t => (t.stowage.items, (writeBank t.journal).map (·.ending))) = some ([], [.shoreDischarged]) := by
  decide +kernel

/-- R39: no item summary comes of a resolution. -/
theorem test_resolveItem : after (.resolveItem 0 5 (some ⟨7, .plan⟩)) (withItems [unresolved7] crane)
    (fun t => (t.stowage.items.map (·.state), writeBank t.journal)) = some ([.plannedIn], []) := by decide +kernel

/-- R42: up to 8 records from the index. -/
theorem test_listItems :
    after (.listItems 0 5 (some 3)) (withItems ((List.range 12).map (fun n => { unit7 with number := n + 1 })) crane)
      (fun t => t.panel.out.map (fun r => match r.body with
        | .items n is => (n, is.map (·.number))
        | _ => (0, []))) = some [(12, [3, 4, 5, 6, 7, 8, 9, 10])] := by decide +kernel

/-- Steps 1 and 2 of section 3.6: the response carries the position and the entries held. -/
theorem test_trialAdd : after (.trialAdd 0 5 (some ⟨50, ⟨60000, 0, 2000⟩, 1, 1000, 1000, none⟩)) crane
    (fun t => (t.trial.length, t.panel.out.map (·.body))) = some (1, [.pushed 1 1]) := by decide +kernel

theorem test_trialMove : after (.trialMove 0 5 (some ⟨7, ⟨60000, 0, 2000⟩, 1⟩)) (withItems [unit7] crane)
    (fun t => t.trial) = some [.move 7 ⟨60000, 0, 2000⟩ 1 false] := by decide +kernel

/-- Step 6 of section 3.6: a MOVE removed, 3 held. -/
theorem test_trialDrop :
    after (.trialDrop 0 ⟨5, true⟩) (withTrial ((List.range 4).map (fun n => .move n ⟨0, 0, 0⟩ 1 false)) crane)
      (fun t => t.panel.out.map (·.body)) = some [.dropped true 3] := by decide +kernel

/-- R186: a body that does not fit its request is refused with RANGE. -/
theorem test_trialDrop_misfit : after (.trialDrop 0 ⟨5, false⟩) (withTrial [.move 1 ⟨0, 0, 0⟩ 1 true] crane)
    (fun t => (t.trial.length, lastResult t)) = some (1, some .range) := by decide +kernel

theorem test_trialClear : after (.trialClear 0 ⟨5, true⟩) (withTrial [.move 1 ⟨0, 0, 0⟩ 1 true] crane)
    (fun t => (t.trial, lastResult t)) = some ([], some .accepted) := by decide +kernel

/-- Step 7 of section 3.6: a VOID entry is skipped and an ADD takes the lowest free number. -/
theorem test_trialAdopt :
    after (.trialAdopt 0 ⟨5, true⟩) (withTrial [.add 50 ⟨60000, 0, 2000⟩ 1 1000 1000 none, .move 1 ⟨0, 0, 0⟩ 1 true]
      (withItems [{ stowed7 with number := 1 }] crane))
      (fun t => (t.trial, t.stowage.items.map (fun i => (i.number, i.label)))) = some ([], [(1, 3107), (2, 0)]) := by
  decide +kernel

/-- R126, R127: a request takes the next claim number, and claims the mass with the rigging allowance. -/
theorem test_liftRequest :
    after (.liftRequest 0 5 (some ⟨7, 1, 768, 256, 24000⟩)) (withItems [plannedOut7] (withHook 0 crane))
      (fun t => (t.claim.state, t.claim.nextNumber, t.claim.record.map (fun c => (c.number, c.mass, c.worst.y)))) =
      some (.probing, 2, some (1, 1890, 33000)) := by decide +kernel

/-- R137: an ANNOUNCED claim ends with a YIELD, a COMMITTED one whose item is SLUNG is refused LOADED. -/
theorem test_liftAbort :
    after (.liftAbort 0 ⟨5, true⟩) (withClaim (claimIn .announced) crane) (fun t => (t.claim.state, t.link.queue)) =
      some (.none, [.yield 12]) ∧
    after (.liftAbort 0 ⟨5, true⟩) (withClaim (claimIn .committed) (withItems [slung7] crane)) lastResult =
      some (some .loaded) := by decide +kernel

/-- R35: LANDED ashore and OUTBOUND, the item is discharged and the claim ends. -/
theorem test_setDown :
    after (.setDown 0 5 (some ⟨none, none, none⟩))
      (withClaim (claimIn .committed) (withItems [landed7 .outbound false ⟨62000, 19400, 9000⟩] crane))
      (fun t => (t.stowage.items, t.claim.state, (writeBank t.journal).map (fun r => (r.claim, r.ending)))) =
      some ([], .none, [(12, .discharged)]) := by decide +kernel

/-- R54, R82: before a publish every record is NOT_YET. -/
theorem test_readCondition : after (.readCondition 0 5 (some .lift)) crane (fun t => t.panel.out.map (·.body)) =
    some [.condition (.notYet .lift)] := by decide +kernel

/-- R103: the entries a view holds, with their times. -/
theorem test_readView : after (.readView 0 ⟨5, true⟩) (withPeers [peer6] crane)
    (fun t => t.panel.out.map (fun r => match r.body with
      | .view v => (v.count, v.entries.map (fun e => (e.station, e.lastHeard)))
      | _ => (0, []))) = some [(1, [(6, 9000)])] := by decide +kernel

/-- R189: START answers READ STATUS, without the parts of other states. -/
theorem test_readStatus : after (.readStatus 0 ⟨5, true⟩) .reset (fun t => t.panel.out.map (fun r => match r.body with
      | .status r => (r.station.state, r.view.isSome, r.lines.isSome)
      | _ => (.run, true, false))) = some [(.start, false, true)] := by decide +kernel

/-- R189: in HALT the times and the filtered line states are those at the entry. -/
theorem test_readStatus_halt :
    let s := ((station craneSection .halt).setStation { (station craneSection .halt).station with frozenAt := some 9500 }).setLines
      ⟨true, List.replicate 12 ⟨true, 9600, true⟩, some (List.replicate 12 ⟨false, 9000, false⟩)⟩
    after (.readStatus 7 ⟨5, true⟩) s (fun t => t.panel.out.map (fun r => match r.body with
      | .status r => (r.station.timer, r.station.timeIn, r.lines.bind (fun l => l.lines[4]?.bind (·.filtered)))
      | _ => (0, 0, none))) = some [(9500, 500, some false)] := by decide +kernel

/-- R102, R104: in HALT entered from FAULT the clean-view condition stays as it was frozen, its part 4 false; a station halted with
its store LOADED shows the port's. -/
theorem test_readStatus_halt_fault :
    let parts := fun (s : State) => (viewPart s).parts
    parts ((station deskSection .halt).setTable { (station deskSection .halt).table with contents := .invalid }) =
        [true, true, true, false, true] ∧
      parts (station deskSection .halt) = [true, true, true, true, true] := by decide +kernel

/-- R178: exactly the kinds returned are removed. -/
theorem test_readEvents : after (.readEvents 0 ⟨5, true⟩) (crane.setReport { Report.cleared with latched := [.frameCheck] })
    (fun t => (t.report.latched, t.panel.out.map (·.body))) = some ([], [.events [.frameCheck] [.wake]]) := by
  decide +kernel

/-- R179: an empty set unmasks every kind; a code outside 1 to 22 is refused. -/
theorem test_setMask : after (.setMask 0 5 (some [])) crane (fun t => t.report.mask) = some [] ∧
    after (.setMask 0 5 (some [23])) crane (fun t => (t.report.mask, lastResult t)) =
      some ([.wake], some .range) := by decide +kernel

/-- R185: an index beyond the last record returns the counts. -/
theorem test_readJournal : after (.readJournal 0 5 (some 32)) crane (fun t => t.panel.out.map (·.body)) =
    some [.journal false 0 0 []] := by decide +kernel

/-- R184: the bank that was the write bank becomes the read bank. -/
theorem test_switchBank : after (.switchBank 0 ⟨5, true⟩) crane (fun t => t.journal.writeA) = some false := by
  decide +kernel

theorem test_retainedWriteComplete :
    after (.retainedWriteComplete 2) ((crane.setMemory { crane.memory with writing := some ⟨⟨[stowed7], .cleared⟩, some
      ⟨3, 5, .accepted, .empty⟩⟩ }).setPanel ⟨some ⟨3, 5⟩, []⟩)
      (fun t => (t.memory.contents.items, t.panel.out.length, t.panel.inProgress)) = some ([stowed7], 1, none) := by
  decide +kernel

/-- R171, R173: at 14,000 of section 9.11 a manual SP stands behind the automatic PS. -/
theorem test_pumpManual :
    after (.pumpManual 0 5 (some .sp)) ((tank.setSensor { Sensor.cleared with port := .fresh, lastRecord := some 9950 }).setPump
      { Pump.cleared with auto := true, autoDemand := .ps, ps := .waiting, offSp := 8500, levels := some [4000, 6000] })
      (fun t => (t.pump.manualDemand, effectiveDemand t.pump, t.pump.ps, t.pump.sp)) =
      some (.sp, .ps, .waiting, .inactive) := by decide +kernel

/-- R170: OFF makes the automatic demand NONE and evaluates the outputs. -/
theorem test_pumpAuto : after (.pumpAuto 0 5 (some false)) (tank.setPump
      { Pump.cleared with auto := true, autoDemand := .ps, ps := .active })
      (fun t => (t.pump.auto, t.pump.autoDemand, t.pump.ps, t.pump.offPs)) =
      some (false, .none, .inactive, 10000) := by decide +kernel

/-- R117: a request is answered 20 ms for each station number after it. -/
theorem test_rollcall :
    after (.rollcall 0 (bytesOf 6 (.rollcall ⟨.crane, 7#32, .powerOn, true, true, 500, 2500, ⟨1, 2, 3⟩⟩))) crane
      (fun t => (t.view.entries.map (·.identity), t.link.answerAt)) = some ([.matching], some 10080) := by
  decide +kernel

/-- R88, R93: an unchanged period leaves a state whose time has passed as it is; a changed one moves it on. -/
theorem test_rollcall_period :
    [500, 400].map (fun p => after (.rollcall 600 (bytesOf 6 (.rollcall ⟨.crane, 7#32, .powerOn, false, false, p, 2500, ⟨1, 2, 3⟩⟩)))
      (withPeers [peer6] crane) (fun t => t.view.entries.map (·.state))) = [some [.fresh], some [.stale]] := by decide +kernel

/-- R87, R117: a SHARE of a station not met before makes an entry and asks the roll. -/
theorem test_share :
    after (.share 0 (bytesOf 6 (.share ⟨false, true, false, zeroSum [60000], zeroSum [60000], none, none⟩))) crane
      (fun t => (t.view.entries.map (·.station), t.link.queue)) = some ([6], [.rollcall true]) := by decide +kernel

theorem test_claim :
    after (.claim 0 (bytesOf 6 (.claim { record12 (some .committed) with station := 6 }))) (withPeers [peer6] crane)
      (fun t => t.view.entries.map (fun e => e.claim.bind (·.phase))) = some [some .announced] := by decide +kernel

theorem test_yield :
    [11, 12].map (fun n => after (.yield 0 (bytesOf 6 (.yield n)))
      (withPeers [{ peer6 with claim := some (record12 (some .announced)) }] crane)
      (fun t => t.view.entries.map (fun e => e.claim.isSome))) = [some [true], some [false]] := by decide +kernel

/-- The first and third arrivals of section 10.4: the filter (0, 3), (7, 0). -/
theorem test_done :
    [(6, some 3), (6, some 1)].map (fun q => after (.done 0 (bytesOf q.1
      (.done ⟨9, .discharged, 7, 1, 5, 1, q.2, none⟩))) crane (fun t => (writeBank t.journal).length)) =
      [some 1, some 0] := by decide +kernel

/-- R26: a TAG sets the entry of its key, and a withdrawn one removes it. -/
theorem test_tag :
    [true, false].map (fun p => after (.tag 0 (bytesOf 6 (.tag ⟨12, 3, p, 64000, -5000, 1⟩)))
      (crane.setStowage ⟨[], [⟨6, 12, 5, 0, 0, 1⟩], false, none⟩) (fun t => t.stowage.map)) =
      [some [⟨6, 12, 3, 64000, -5000, 1⟩], some []] := by decide +kernel

theorem test_frameCheckFail : after (.frameCheckFail 0 [4, 6, 0, 1, 3, 0, 0]) crane
    (fun t => (t.report.latched, t.view.windowOpen, t.view.failureAt)) = some ([.frameCheck], true, some 10000) := by
  decide +kernel

theorem test_lineIdleTimeout : after (.lineIdleTimeout 0 [4, 6, 0, 1]) crane (fun t => t.report.latched) =
    some [.frameCheck] := by decide +kernel

theorem test_fragmentReceived : exec (.fragmentReceived 3 [4]) crane = .next (elapse 3 crane) := rfl

/-- R113: a fixed frame goes before the placeholder. -/
theorem test_txAttemptStart : after (.txAttemptStart 100) (crane.setLink
      { crane.link with queue := [.yield 3], placeholder := true })
      (fun t => (t.link.tx, t.link.queue, t.link.placeholder)) =
      some (some ⟨⟨4, .yield 3⟩, 1, .sending⟩, [], true) := by decide +kernel

/-- R106: the 16th collided attempt drops the frame. -/
theorem test_txCollision : after (.txCollision 0) (crane.setLink
      { crane.link with tx := some ⟨⟨4, .yield 3⟩, 16, .sending⟩ }) (fun t => (t.link.tx, t.report.latched)) =
      some (none, [.linkTx]) := by decide +kernel

theorem test_txBackoffExpiry : after (.txBackoffExpiry 4) (crane.setLink
      { crane.link with tx := some ⟨⟨4, .yield 3⟩, 1, .backoff 10004⟩ }) (fun t => t.link.tx.map (·.phase)) =
      some (some .ready) := by decide +kernel

theorem test_txComplete : after (.txComplete 2) (crane.setLink
      { crane.link with tx := some ⟨⟨4, .yield 3⟩, 1, .sending⟩ }) (fun t => (t.link.tx, t.link.out.length)) =
      some (none, 1) := by decide +kernel

/-- R114: the period in force is 500 ms where the section holds 0 (R11). -/
theorem test_shareInterval : [399, 400].map (fun dt => after (.shareIntervalExpiry dt) crane
    (fun t => t.link.placeholder)) = [some false, some true] := by decide +kernel

theorem test_shareSpacing : [49, 50].map (fun dt => after (.shareSpacingExpiry dt) (crane.setLink
    { crane.link with spacing := true, shareStart := some 10000 }) (fun t => t.link.spacing)) =
    [some true, some false] := by decide +kernel

theorem test_rollcallAnswerDue : after (.rollcallAnswerDue 80) (crane.setLink
      { crane.link with answerAt := some 10080 }) (fun t => (t.link.answerAt, t.link.queue)) =
      some (none, [.rollcall false]) := by decide +kernel

/-- R118: the rotation goes on behind the item last named. -/
theorem test_tagRotation : after (.tagRotation 0) (withItems [unit7, { unit7 with number := 8 }] (crane.setLink
      { crane.link with rotation := some ⟨0, false⟩ })) (fun t => t.link.queue.map (isTagFor 8)) =
      some [true] := by decide +kernel

/-- R92: STALE after 3 periods and LOST after 10, of 500 ms. -/
theorem test_peerStale : [499, 500].map (fun dt => after (.peerStale dt 6) (withPeers [peer6] crane)
    (fun t => t.view.entries.map (·.state))) = [some [.fresh], some [.stale]] := by decide +kernel

theorem test_peerLost : [3999, 4000].map (fun dt => after (.peerLost dt 6) (withPeers [{ peer6 with state := .stale }] crane)
    (fun t => t.view.entries.map (·.state))) = [some [.stale], some [.lost]] := by decide +kernel

/-- R107: a SHARE of more than 8 sections fails its check, though its length matches (log 23). -/
theorem test_share_sections :
    let share := fun k => bytesOf 6 (.share ⟨false, true, false, zeroSum (List.replicate k 0), zeroSum (List.replicate k 0), none, none⟩)
    ((frameOf (share 8)).isSome, (frameOf (share 9)).isSome) = (true, false) := by decide +kernel

/-- R98: the window closes 10 own periods after the latest failure. -/
theorem test_frameCheckWindowClose : [4999, 5000].map (fun dt => after (.frameCheckWindowClose dt) (crane.setView
    { View.cleared with failureAt := some 10000, windowOpen := true }) (fun t => t.view.windowOpen)) =
    [some true, some false] := by decide +kernel

/-- R100: 10 s of disagreement latch HEEL_MISMATCH. -/
theorem test_heelFilterExpiry : after (.heelFilterExpiry 10000) (crane.setView
      { View.cleared with heelFilter := some 10000 }) (fun t => (t.view.agreement, t.report.latched)) =
      some (false, [.heelMismatch]) := by decide +kernel

/-- R56: 250 ms after the start of the latest pass. -/
theorem test_solverInterval : [149, 150].map (fun dt => after (.solverIntervalExpiry dt) crane
    (fun t => t.solver.pass.isSome)) = [some false, some true] := by decide +kernel

theorem test_passStart : after (.passStart 0) (crane.setSolver { crane.solver with dirty := true })
    (fun t => (t.solver.pass.map (·.time), t.solver.dirty)) = some (some 10000, false) := by decide +kernel

/-- R59: the pass number advances, and the three records carry it. -/
theorem test_publish : after (.publish 0) (crane.setSolver { crane.solver with pass := some (snapshotOf crane) })
    (fun t => (t.solver.passNumber, t.solver.actual.body.map (·.passNumber), t.solver.final.body.map (·.passNumber))) =
      some (1, some 1, some 1) := by decide +kernel

theorem test_backoffExpiry : [999, 1000].map (fun dt => after (.backoffExpiry dt)
    (withClaim (claimIn .backoff) crane) (fun t => t.claim.state)) = [some .backoff, some .probing] := by
  decide +kernel

/-- R134: 10 minutes after the commit time. -/
theorem test_liftOverdue : [599499, 599500].map (fun dt => after (.liftOverdue dt) (withClaim (claimIn .committed) crane)
    (fun t => t.claim.overdue)) = [some false, some true] := by decide +kernel

/-- At 1,200 of section 8.6: a pick under claim 12 slings item 7 OUTBOUND; permits on, on, off, on. -/
theorem test_hookRecord : after (.hookRecord 0 (encodeHook ⟨1200, 768, 7000, 4100, none⟩))
    (withClaim (claimIn .committed) (withItems [plannedOut7] (withHook 30 crane)))
    (fun t => (t.crane.lastLoaded, t.stowage.items.map (fun i => (i.state, i.direction)), t.crane.permits)) =
      some (some ⟨62000, 2000, 4100⟩, [(.slung, some .outbound)], ⟨true, true, false, true⟩) := by decide +kernel

/-- At 9,800 of section 8.6: a release lands item 7 ashore. -/
theorem test_hookRecord_release : after (.hookRecord 0 (encodeHook ⟨12, 256, 10400, 9000, none⟩))
    (withClaim (claimIn .committed) (withItems [slung7] (((withHook 35 crane).setCrane
      { (withHook 35 crane).crane with carrying := true, lastLoaded := some ⟨62000, 19400, 9000⟩ }))))
    (fun t => t.stowage.items.map (fun i => (i.state, i.landing))) =
      some [(.landed, some ⟨⟨62000, 19400, 9000⟩, false⟩)] := by decide +kernel

/-- At 30,000 of section 9.11: the port tank at its max level ends the SP demand. -/
theorem test_levelsRecord : after (.levelsRecord 0 (encodeLevels [9500, 500])) (tank.setPump
      { Pump.cleared with auto := true, manualDemand := .sp, sp := .active, levels := some [9499, 501] })
      (fun t => (t.pump.manualDemand, t.pump.sp, t.pump.offSp, t.report.latched)) =
      some (.none, .inactive, 10000, [.pumpLimit]) := by decide +kernel

theorem test_sensorRecordDiscard : after (.sensorRecordDiscard 0 [1, 2]) crane (fun t => t.sensor.discarded) =
    some 1 := by decide +kernel

/-- R147: 300 ms and 1,300 ms after the latest record. -/
theorem test_sensorHolding : [299, 300].map (fun dt => after (.sensorHolding dt) (withHook 0 crane)
    (fun t => t.sensor.port)) = [some .fresh, some .holding] := by decide +kernel

theorem test_sensorLost : [1299, 1300].map (fun dt => after (.sensorLost dt) ((withHook 0 crane).setSensor
    { Sensor.cleared with port := .holding, lastRecord := some 10000 }) (fun t => (t.sensor.port, t.report.latched))) =
    [some (.holding, []), some (.lost, [.sensorLost])] := by decide +kernel

/-- A direction that waits for its dead interval. -/
def waiting : Pump := { Pump.cleared with auto := true, autoDemand := .ps, ps := .waiting, offSp := 10000 }

/-- At 15,000 of section 9.11: the dead interval of 3 s has passed. -/
theorem test_deadInterval : [2999, 3000].map (fun dt => after (.deadIntervalExpiry dt) (tank.setPump waiting) (fun t => t.pump.ps)) =
    [some .waiting, some .active] := by decide +kernel

/-- R173: an output made ACTIVE and stopped at the very moment its dead interval ran out was not ACTIVE: its off time stands. -/
theorem test_deadInterval_tie :
    (after (.deadIntervalExpiry 3000) (tank.setPump waiting) id).bind (fun t => after (.pumpAuto 0 5 (some false)) t
      (fun v => (v.pump.ps, v.pump.offPs))) = some (.inactive, 0) := by decide +kernel

/-- A TANK station with its pump output's dead interval run out, then a command, then a record that stops the output. -/
def dueThen (c : Instr) (dt : Nat) (s : State) : Option State :=
  ((after (.deadIntervalExpiry 0) s id).bind (fun t => after c t id)).bind
    (fun t => after (.levelsRecord dt (encodeLevels [500, 5000])) t id)

/-- What a wake shows. -/
def wakeShown (t : State) : StationState × List EventKind × Bool × OutState :=
  (t.station.state, t.report.latched, t.link.placeholder, t.pump.ps)

/-- A QUIET station with an output whose dead interval runs out now. -/
def quietDue : State := (station tankSection .quiet).setPump { waiting with offSp := 7000 }

/-- R121, R173: an output whose dead interval ran out in QUIET wakes the station at that moment; a stop at the same moment finds
that it did not become ACTIVE, a later one, or one after the wake's SHARE, that it did. -/
theorem test_deadInterval_quiet :
    after (.deadIntervalExpiry 0) quietDue wakeShown = some (.run, [.wake], true, .active) ∧
    [dueThen (.fragmentReceived 0 []) 0 quietDue, dueThen (.fragmentReceived 0 []) 1 quietDue,
      dueThen (.txAttemptStart 0) 0 quietDue,
      dueThen (.fragmentReceived 0 []) 0 (quietDue.setLink { quietDue.link with placeholder := true })].map
        (Option.map wakeShown) =
      [some (.quiet, [.pumpLimit], false, .inactive), some (.run, [.pumpLimit, .wake], true, .inactive),
        some (.run, [.pumpLimit, .wake], false, .inactive), some (.quiet, [.pumpLimit], true, .inactive)] := by
  decide +kernel

/-- R119, R173: an output whose dead interval ran out stops the quiet filter at that moment, which a stop at the same moment takes
back and a later one does not. -/
theorem test_deadInterval_filter :
    let s := (tank.setPump { waiting with offSp := 7000 }).setStation { tank.station with quietStart := some 8000 }
    let t := after (.deadIntervalExpiry 0) s id
    t.map (·.station.quietStart) = some none ∧
      [0, 1].map (fun dt => t.bind (fun t => after (.levelsRecord dt (encodeLevels [500, 5000])) t
        (·.station.quietStart))) = [some (some 8000), some (some 10001)] := by decide +kernel

theorem test_lineLevelChange : after (.lineLevelChange 0 5 true) crane (fun t => (lineInput t 5)) =
    some ⟨true, 10000, false⟩ := by decide +kernel

/-- R160: 20 ms. -/
theorem test_inputFilterExpiry : [19, 20].map (fun dt => after (.inputFilterExpiry dt 5) (crane.setLines
    { crane.lines with inputs := crane.lines.inputs.set 4 ⟨true, 10000, false⟩ }) (fun t => (lineInput t 5).filtered)) =
    [some false, some true] := by decide +kernel

/-- R27: 130 s below 48 entries. -/
theorem test_mapSettleExpiry : [129999, 130000].map (fun dt => after (.mapSettleExpiry dt) (crane.setStowage
    ⟨[], [], true, some 10000⟩) (fun t => t.stowage.mapIncomplete)) = [some true, some false] := by decide +kernel

/-- The queue is taken from its front, and the block idles when it is empty. -/
theorem test_step : step (crane.setPending [.fragmentReceived 1 [], .restart 0 ⟨0, true⟩]) =
      .next ((elapse 1 crane).setPending [.restart 0 ⟨0, true⟩]) ∧ step crane = .next crane := ⟨rfl, rfl⟩

/-! ### Witnesses: steps and invariants

A state and operands that meet the hypotheses of each statement, clause by clause, at the edges of their ranges. -/

/-- A station with no retained write and no LIFT REQUEST waiting keeps its port. -/
theorem portKept_of_idle {s : State} (hw : s.memory.writing = none) (hp : s.claim.pending = false) : portKept s :=
  ⟨fun w r h => absurd (hw.symm.trans h) (fun e => by cases e), fun h => absurd (hp.symm.trans h) (fun e => by cases e)⟩

/-- An item list over empty, whole retained memory. -/
theorem stowageKept_of {s : State} (h : listKept s.stowage.items) (hm : s.memory = retainedWhole ⟨[], .cleared⟩) :
    stowageKept s := by
  unfold stowageKept
  rw [hm]
  exact ⟨h, ⟨by decide, by decide, fun i hi => by cases hi⟩, fun w e => (by cases e), rfl⟩

/-- A compartment that is not among the own ones. -/
theorem notOwned_of {l : List (Nat × Compartment)} {n : Nat} (h : n ∉ l.map (·.1)) (c : Compartment) : (n, c) ∉ l :=
  fun m => h (List.mem_map_of_mem m)

theorem witness_StepRunsFrontCommand : (queued (.restart 0 ⟨0, true⟩) crane).pending = [.restart 0 ⟨0, true⟩] := rfl

def writing3 : State :=
  (crane.setMemory { crane.memory with writing := some ⟨⟨[stowed7], .cleared⟩, some ⟨3, 5, .accepted, .empty⟩⟩ }).setPanel
    ⟨some ⟨3, 5⟩, []⟩

def probing : State := (withClaim { claimIn .probing with pending := true } crane).setPanel ⟨some ⟨14, 5⟩, []⟩

theorem witness_StepKeepsOneRequestInHand :
    (portKept (queued (.retainedWriteComplete 0) writing3) ∧
      ∃ t, step (queued (.retainedWriteComplete 0) writing3) = .next t) ∧
    (portKept (queued (.restart 0 ⟨0, true⟩) probing) ∧ ∃ t, step (queued (.restart 0 ⟨0, true⟩) probing) = .next t) := by
  refine ⟨⟨⟨fun w r hw hr => ?_, fun h => (by cases h)⟩, _, rfl⟩,
    ⟨⟨fun w r hw => (by cases hw), fun _ => ⟨rfl, 5, rfl⟩⟩, _, rfl⟩⟩
  cases hw
  cases hr
  exact ⟨rfl, rfl⟩

/-- Numbers 1 and 255, and a record of each shape. -/
def fiveItems : List Item :=
  [unit7, { stowed7 with number := 1, cls := none }, { plannedOut7 with number := 255, cls := none },
    { slung7 with number := 8, cls := none }, { landed7 .inbound true ⟨1, 2, 3⟩ with number := 9, cls := none },
    { unresolved7 with number := 10, cls := none }]

theorem fiveItems_kept : listKept fiveItems := by
  refine ⟨by decide, by decide, ?_⟩
  simp [fiveItems, itemShape, unit7, stowed7, plannedOut7, slung7, landed7, unresolved7, inState]

def planning : State :=
  withTrial [.move 7 ⟨60000, 0, 2000⟩ 1 false, .move 1 ⟨60000, 0, 2000⟩ 1 true] (withItems fiveItems crane)

theorem planning_kept : movesKept planning := by
  intro n p c h
  change _ ∈ [TrialEntry.move 7 ⟨60000, 0, 2000⟩ 1 false, .move 1 ⟨60000, 0, 2000⟩ 1 true] at h
  simp at h
  exact ⟨unit7, by decide +kernel, h.1.symm, rfl⟩

theorem witness_StepKeepsItemList : stowageKept (queued (.trialAdopt 0 ⟨5, true⟩) planning) ∧
    movesKept (queued (.trialAdopt 0 ⟨5, true⟩) planning) ∧ ∃ t, step (queued (.trialAdopt 0 ⟨5, true⟩) planning) = .next t :=
  ⟨stowageKept_of fiveItems_kept rfl, planning_kept, _, rfl⟩

theorem witness_StepKeepsClaimUnit :
    claimKept (queued (.liftAbort 0 ⟨5, true⟩) crane) ∧
    (claimKept (withClaim (claimIn .probing) crane) ∧ claimKept (withClaim (claimIn .backoff) crane)) ∧
    (claimKept (withClaim (claimIn .announced) crane) ∧
      claimKept (queued (.liftAbort 0 ⟨5, true⟩) (withClaim (claimIn .committed) crane))) ∧
    ∃ t, step (queued (.liftAbort 0 ⟨5, true⟩) (withClaim (claimIn .committed) crane)) = .next t :=
  ⟨⟨rfl, by decide +kernel⟩, ⟨⟨⟨_, rfl, rfl⟩, by decide +kernel⟩, ⟨⟨_, rfl, rfl⟩, by decide +kernel⟩⟩,
    ⟨⟨⟨_, rfl, rfl⟩, by decide +kernel⟩, ⟨⟨_, rfl, rfl⟩, by decide +kernel⟩⟩, _, rfl⟩

/-- Every store full. -/
def full : State :=
  let s := withTrial (List.replicate 8 (.move 7 ⟨0, 0, 0⟩ 1 true)) crane
  let s := s.setStowage { s.stowage with map := List.replicate 48 ⟨6, 1, 3, 0, 0, 1⟩ }
  let s := s.setLink { s.link with queue := List.replicate 32 (.yield 1) }
  let s := withPeers ((List.range 14).map (fun n => { peer6 with station := n + 1 })) s
  let s := s.setSensor { s.sensor with discarded := 65535 }
  let s := s.setSolver { s.solver with passNumber := 4294967295 }
  s.setJournal ⟨List.replicate 32 ⟨4, 0, 7, 0, .shoreStowed, 5, none, 1, none, 10⟩, [], true⟩

theorem witness_StepKeepsSizes : sizesKept (queued (.sensorRecordDiscard 0 [1]) full) ∧
    journalKept (queued (.sensorRecordDiscard 0 [1]) full) ∧
    ∃ t, step (queued (.sensorRecordDiscard 0 [1]) full) = .next t :=
  ⟨by unfold sizesKept; decide +kernel, ⟨by unfold banksKept; decide +kernel, by unfold banksKept; decide +kernel,
    fun w h => (by cases h)⟩, _, rfl⟩

theorem witness_StepKeepsPeerView :
    viewKept (queued (.peerStale 0 6) (withPeers [{ peer6 with station := 1 }, peer6, { peer6 with station := 15 }] crane)) ∧
    ∃ t, step (queued (.peerStale 0 6) (withPeers [peer6] crane)) = .next t :=
  ⟨by unfold viewKept; decide +kernel, _, rfl⟩

theorem witness_StepKeepsDerivedConditions :
    derivedKept (queued (.peerStale 0 6) (withPeers [peer6] (desk.setView { View.cleared with clean := true }))) ∧
    derivedKept (queued (.restart 0 ⟨0, true⟩) crane) ∧ ∃ t, step (queued (.restart 0 ⟨0, true⟩) crane) = .next t :=
  ⟨by unfold derivedKept; decide +kernel, by unfold derivedKept; decide +kernel, _, rfl⟩

/-- The crane after one publish. -/
def published : State :=
  match exec (.publish 0) (crane.setSolver { crane.solver with pass := some (snapshotOf crane) }) with
  | .next t => t
  | _ => crane

theorem witness_StepKeepsOnePublish : publishKept (queued (.passStart 0) published) ∧ published.solver.passNumber = 1 ∧
    publishKept (queued (.passStart 0) crane) ∧ ∃ t, step (queued (.passStart 0) published) = .next t :=
  ⟨⟨⟨by decide +kernel, by show (_ : Nat) = _; decide +kernel⟩, ⟨by decide +kernel, by show (_ : Nat) = _; decide +kernel⟩,
      ⟨by decide +kernel, by show (_ : Nat) = _; decide +kernel⟩, by decide +kernel⟩, by decide +kernel,
    ⟨⟨rfl, rfl⟩, ⟨rfl, rfl⟩, ⟨rfl, rfl⟩, by decide +kernel⟩, _, rfl⟩

def waitingPs : State := tank.setPump { Pump.cleared with manualDemand := .ps, ps := .waiting, offSp := 7000 }

def waitingSp : State := tank.setPump { Pump.cleared with manualDemand := .sp, sp := .waiting, offPs := 7000 }

theorem witness_PumpsKeptApart :
    pumpsApart (queued (.deadIntervalExpiry 0) waitingPs) ∧
    (∃ t, step (queued (.deadIntervalExpiry 0) waitingPs) = .next t ∧ t.pump.ps = .active) ∧
    pumpsApart (queued (.deadIntervalExpiry 0) waitingSp) ∧
    (∃ t, step (queued (.deadIntervalExpiry 0) waitingSp) = .next t ∧ t.pump.sp = .active) :=
  ⟨by unfold pumpsApart; decide +kernel, ⟨_, rfl, by decide +kernel⟩, by unfold pumpsApart; decide +kernel,
    ⟨_, rfl, by decide +kernel⟩⟩

/-! ### Witnesses: resets, START, LISTEN and QUIET -/

def low (p : Power) : State := crane.setPower p

theorem witness_ResetLeavesResetValues :
    (crane.power.line = false) ∧
    ((low ⟨true, false, false, some .brownOut, true⟩).power.off = false ∧
      (low ⟨true, false, false, some .brownOut, true⟩).power.line = false ∧
      (low ⟨true, false, false, some .brownOut, true⟩).power.resetPending = some .brownOut) ∧
    ((low ⟨true, false, false, some .panelRestart, true⟩).power.responseSent = true) ∧
    ((low ⟨false, false, true, some .restartLine, true⟩).power.low = false ∧
      (low ⟨false, false, true, some .restartLine, true⟩).power.resetPending = some .restartLine) ∧
    ((low ⟨false, false, false, some .panelRestart, false⟩).power.low = false ∧
      (low ⟨false, false, false, some .panelRestart, false⟩).power.line = false ∧
      (low ⟨false, false, false, some .panelRestart, false⟩).power.resetPending = some .panelRestart) ∧
    (slung7.state = .slung ∧ stowed7.state ≠ .slung) := by decide +kernel

theorem witness_DetectionHoldsTheStation :
    (∀ s ∈ [.reset, crane, station craneSection .halt, station craneSection .fault], admits 26 s) ∧
    (low ⟨true, false, false, some .brownOut, true⟩).power.low = true ∧
      (low ⟨false, false, true, some .restartLine, true⟩).power.line = true ∧
      ∀ c ∈ [Instr.hookRecord 0 [1], .markOut 0 5 none, .tag 0 [], .txComplete 0, .inputFilterExpiry 0 1],
        crossesPort c = true := by decide +kernel

/-- START, while the commissioning memory is read. -/
def starting (t : TableStore) : State := State.reset.setTable t

theorem witness_CommissioningMemoryIsRead :
    ((starting (readSoFar none none none none 2 49)).station.state = .start ∧
      imageFitsHeader ⟨4, 2, 1, 4⟩ ship = true ∧ sectionFits craneSection = true) ∧
    (∀ s ∈ [starting (readSoFar none none none none 0 0), starting (readSoFar none none none none 2 0)],
      s.station.state = .start ∧ s.table.contents = .empty ∧ s.view.clean = false) ∧
    (State.reset.station.timer + 49 < 0 + 50 ∧ 0 + 50 ≤ State.reset.station.timer + 50) ∧
    ((readSoFar none none none none 1 0).attempts < 2 ∧ 2 ≤ (readSoFar none none none none 2 0).attempts) := by
  decide +kernel

/-- The fixture's memory, all but the section check. -/
def readAll (h : Header) (c : StationSection) : State :=
  starting (readSoFar (some h) (some (ship, [1])) (some (crc32 [1])) (some (c, [2])) 0 5)

theorem witness_ValidMemoryEntersListen :
    ∀ c ∈ [craneSection, tankSection, deskSection],
      (readAll ⟨4, 2, 1, 4⟩ c).station.state = .start ∧ (readAll ⟨4, 2, 1, 4⟩ c).link = Link.cleared 0 [] ∧
      (readAll ⟨4, 2, 1, 4⟩ c).view = View.cleared ∧
      validate ⟨⟨4, 2, 1, 4⟩, ship, crc32 [1], crc32 [1], c, crc32 [2], crc32 [2]⟩ = none := by decide +kernel

theorem witness_InvalidMemoryEntersFault :
    ((readAll ⟨5, 2, 1, 4⟩ craneSection).station.state = .start ∧
      (readAll ⟨5, 2, 1, 4⟩ craneSection).view.clean = false ∧
      validate ⟨⟨5, 2, 1, 4⟩, ship, crc32 [1], crc32 [1], craneSection, crc32 [2], crc32 [2]⟩ = some ⟨.format, 1⟩) ∧
    (validate ⟨⟨4, 2, 1, 4⟩, ship, crc32 [1], 0#32, craneSection, crc32 [2], crc32 [2]⟩).map (·.kind) = some .tableCheck ∧
    (validate ⟨⟨4, 2, 1, 4⟩, ship, 0#32, 0#32, { craneSection with number := 16 }, 0#32, 0#32⟩).map (·.kind) =
      some .stationNumber ∧
    (validate ⟨⟨4, 2, 1, 4⟩, ship, 0#32, 0#32, { craneSection with crane := none }, 0#32, 0#32⟩) =
      some ⟨.roleSection, 1⟩ ∧
    (State.reset.station.state = .start ∧ State.reset.table.contents = .empty ∧ State.reset.view.clean = false) := by
  decide +kernel

/-- A header at each edge of R18, and the first of two ranges of R4 that fail. -/
theorem witness_FirstFailureDecidesFault :
    (∀ h ∈ [Header.mk 4 2 0 1, ⟨4, 128, 8, 32⟩],
      h.format = 4 ∧ 2 ≤ h.rows ∧ h.rows ≤ 128 ∧ h.sections ≤ 8 ∧ 1 ≤ h.compartments ∧ h.compartments ≤ 32) ∧
    (∀ h ∈ [Header.mk 4 1 1 4, ⟨4, 129, 1, 4⟩], h.format = 4 ∧ ¬ (2 ≤ h.rows ∧ h.rows ≤ 128)) ∧
    (∀ h ∈ [Header.mk 4 2 8 0, ⟨4, 2, 8, 33⟩], h.sections ≤ 8 ∧ ¬ (1 ≤ h.compartments ∧ h.compartments ≤ 32)) ∧
    ((Header.mk 3 2 1 4).format ≠ 4 ∧ 8 < (Header.mk 4 2 9 4).sections) ∧
    validate ⟨⟨4, 2, 1, 4⟩, { ship with particulars := { ship.particulars with lpp := 0, maxDraft := 0 } }, 0#32, 0#32,
      { craneSection with number := 0 }, 0#32, 0#32⟩ = some ⟨.particulars, 1⟩ := by decide +kernel

/-- Values at which each check of R5 to R9 and R11 to R15 fails, with the detail of its rule, and images that pass. -/
theorem witness_FirstFailureDecidesFault_details :
    (ship.rows.getLast?.map (·.d) = some 91800 ∧ rowsFault ship = none ∧
      rowsFault { ship with rows := ship.rows.map (fun r => { r with d := 90000 }) } = some 1 ∧
      lightshipFault { ship with lightship := { ship.lightship with mass := 91800 } } = some 0 ∧
      lightshipFault { ship with lightship := { ship.lightship with aft := [⟨0, 1⟩] } } = some 1 ∧
      sectionsFault { ship with sections := ship.sections ++ ship.sections } = some 2 ∧
      compartmentsFault { ship with compartments := ship.compartments.map (fun c => { c with tank := none }) } = some 2) ∧
    (stationFieldsFault ship { craneSection with period := 150, crane := none } = some 3 ∧
      stationFieldsFault ship { craneSection with crane := craneSection.crane.map ({ · with heelTolerance := none }) } = some 36 ∧
      stationFieldsFault ship { tankSection with pump := tankSection.pump.map ({ · with stbdTank := 2 }) } = some 42) ∧
    (linesFault .crane (craneSection.lines.drop 1) = some 0 ∧ linesFault .tank craneSection.lines = some 1 ∧
      linesFault .crane (craneSection.lines ++ craneSection.lines) = some 13) ∧
    (roleFault ship tankSection .tank = none ∧ roleFault ship { craneSection with envelopeMass := 0 } .crane = some 3 ∧
      roleFault ship { deskSection with number := 3 } .desk = some 5 ∧
      roleFault ship { tankSection with pump := tankSection.pump.map ({ · with portTank := 3, stbdTank := 2 }) } .tank = some 10) := by
  decide +kernel

def listening : State := station craneSection .listen
def filtering : State := crane.setStation { crane.station with quietStart := some 10000 }

theorem witness_ListenQuietAndWake :
    (listening.station.state = .listen ∧ listening.station.listenAt = some 5000 ∧
      ({ listening.station with timer := 8999 }).timer + 0 < 5000 + 4000 ∧ 5000 + 4000 ≤ 9000 + 0) ∧
    (filtering.station.state = .run ∧ filtering.station.quietStart = some 10000 ∧ quietTime filtering = some 4000 ∧
      filtering.station.timer + 3999 < 10000 + 4000 ∧ 10000 + 4000 ≤ filtering.station.timer + 4000) ∧
    quietTime tank = none ∧ quietTime desk = some 60000 ∧
    (crane.station.state = .run ∧ (station craneSection .quiet).station.state = .quiet ∧
      listening.station.state ≠ .run ∧ listening.station.state ≠ .quiet) := by decide +kernel

/-! ### Witnesses: the panel port -/

theorem witness_BusyAndStateAnswers :
    requestOf (.markOut 0 5 none) = some (3, 5) ∧ takesInputs writing3 = true ∧ writing3.panel.inProgress ≠ none ∧
      (crane.panel.inProgress = none ∧ requestOf (.liftRequest 0 5 none) = some (14, 5) ∧
        ¬ stateAdmits listening.station.state 14) ∧
      ¬ stateAdmits State.reset.station.state 1 ∧ ¬ stateAdmits (station craneSection .fault).station.state 3 := by
  refine ⟨rfl, by decide +kernel, by decide +kernel, ⟨rfl, rfl, ?_⟩, ?_, ?_⟩ <;>
    simp [stateAdmits, listening, station, State.reset]

theorem witness_ReadRequestsChangeNothing :
    (admits 8 crane ∧ (asTaken 0 crane).role ≠ .tank) ∧ (admits 8 tank ∧ (asTaken 0 tank).role = .tank) ∧
    admits 17 crane ∧ admits 18 (station craneSection .fault) ∧ admits 19 .reset ∧ admits 22 crane ∧
    (1 ≤ 1 ∧ 1 ≤ 64 ∧ 64 ≤ 64 ∧ (0 = 0 ∨ 64 < 0) ∧ (65 = 0 ∨ 64 < 65) ∧ 32 ≤ 32 ∧ 32 < 33) := by decide +kernel

theorem witness_StatusRecordParts :
    (∀ q ∈ [(crane, craneSection, Role.crane), (tank, tankSection, .tank), (desk, deskSection, .desk)],
      q.1.table.contents = .loaded ∧ q.1.table.stationSection = some q.2.1 ∧ q.2.1.role = some q.2.2) ∧
    State.reset.table.contents ≠ .loaded ∧ State.reset.station.state = .start ∧
      (station craneSection .fault).station.state = .fault ∧
      (∀ s ∈ [crane, tank, desk, listening, station craneSection .quiet, station craneSection .halt],
        s.station.state ≠ .start ∧ s.station.state ≠ .fault) ∧ crane.role = .crane ∧ tank.role = .tank ∧
      (station craneSection .halt).station.state = .halt ∧
      ∀ n ∈ [1, 12], 1 ≤ n ∧ n ≤ 12 ∧ crane.lines.inputs[n - 1]? = some ⟨false, 9000, false⟩ := by
  decide +kernel

theorem witness_ReportRequestsAndWriteCompletion :
    (admits 20 crane ∧ admits 21 crane ∧ (∀ c ∈ [1, 22], 1 ≤ c ∧ c ≤ 22) ∧ (∃ c ∈ [5, 0], c = 0 ∨ 22 < c) ∧
      (∃ c ∈ [23], c = 0 ∨ 22 < c)) ∧
    (portKept crane ∧ admits 23 crane) ∧
    writing3.memory.writing = some ⟨⟨[stowed7], .cleared⟩, some ⟨3, 5, .accepted, .empty⟩⟩ ∧
    (crane.setMemory { crane.memory with writing := some ⟨⟨[], .cleared⟩, none⟩ }).memory.writing =
      some ⟨⟨[], .cleared⟩, none⟩ :=
  ⟨by decide +kernel, ⟨portKept_of_idle rfl rfl, by decide +kernel⟩, rfl, rfl⟩

/-! ### Witnesses: the item list

`taken s` is the station as the owner of a request finds it at once. -/

def taken (s : State) : State := asTaken 0 s
def used (s : State) : State := asUsed 0 s

/-- Fields of an item that fits the hold of station 4. -/
def args1 : ItemArgs := ⟨65535, 1, ⟨52000, -11000, 1200⟩, 1, 100, 30000, none⟩
def args9 : ItemArgs := { args1 with cls := some 9 }
def item13 : List Item := [{ unit7 with number := 1 }, { unit7 with number := 3 }]

def items64 : List Item := (List.range 64).map (fun n => { unit7 with number := n + 1 })
def incomplete (s : State) : State := s.setStowage { s.stowage with mapIncomplete := true }

/-- A map entry of class 3 at the position of the fixtures' unit. -/
def mapped (s : State) : State := s.setStowage { s.stowage with map := [⟨6, 12, 3, 61500, 2000, 1⟩] }
def args3 : ItemArgs := ⟨0, 1850, ⟨61500, 2000, 3500⟩, 1, 8000, 4500, some 3⟩

/-- The smallest and the largest fields of an item. -/
theorem fields_in_range : ∀ a ∈ [args1, args9, { args3 with label := 65535, mass := 100000, length := 30000, breadth := 100 }],
    a.label ≤ 65535 ∧ 1 ≤ a.mass ∧ a.mass ≤ 100000 ∧ pointInRange a.pos = true ∧
      (1 ≤ a.comp ∧ a.comp ≤ (taken crane).img.compartments.length) ∧ 100 ≤ a.length ∧ a.length ≤ 30000 ∧
      100 ≤ a.breadth ∧ a.breadth ≤ 30000 ∧ ∀ c ∈ a.cls, 1 ≤ c ∧ c ≤ 9 := by decide +kernel

theorem witness_StowageRequestsRefusedInOrder :
    (∀ code ∈ [1, 2, 3, 4, 5, 6, 7], admits code tank ∧ admits code crane) ∧
    ((taken tank).role = .tank ∧ (taken crane).role ≠ .tank) ∧
    (¬ (1 ≤ { args1 with mass := 0 }.mass) ∧ ¬ ({ args1 with comp := 5 }.comp ≤ (taken crane).img.compartments.length) ∧
      ¬ (1 ≤ 0 ∧ 0 ≤ 255) ∧ ¬ (1 ≤ 256 ∧ 256 ≤ 255)) ∧
    (64 ≤ (taken (withItems items64 crane)).stowage.items.length ∧ (taken crane).stowage.items.length < 64) ∧
    (args9.cls.isSome = true ∧ (taken (incomplete crane)).stowage.mapIncomplete = true ∧ args1.cls.isSome ≠ true) ∧
    (∀ c, (4, c) ∉ (taken crane).ownCompartments) ∧
    (∃ c, (1, c) ∈ (taken crane).ownCompartments ∧ (c.xFrom = 52000 ∧ ¬ c.xFrom ≤ 51999) ∧
      (c.xFrom ≤ 52000 ∧ 52000 ≤ c.xTo ∧ c.yFrom ≤ -11000 ∧ -11000 ≤ c.yTo ∧ c.zFrom ≤ 1200 ∧ 1200 ≤ c.zTo) ∧
      c.pressure.getD 0 * 1000 * 1000 < 61 * 1000000 ∧ 60 * 1000000 ≤ c.pressure.getD 0 * 1000 * 1000) ∧
    (placementRefusal (taken (mapped crane)) args3.pos args3.comp args3.mass args3.length args3.breadth = none ∧
      segregated (taken (mapped crane)) none args3.cls args3.pos args3.comp = true ∧
      segregated (taken (mapped crane)) (some 7) args3.cls args3.pos args3.comp = true ∧
      (taken (mapped crane)).stowage.mapIncomplete = false) ∧
    placementRefusal (taken crane) ⟨0, 0, 0⟩ 4 1 100 100 = some .notOwned ∧
    findItem 255 (taken crane).stowage.items = none ∧
    (∀ i ∈ [unit7, stowed7, plannedOut7, unresolved7],
      findItem 7 (taken (withItems [i] crane)).stowage.items = some i ∧
      underClaim (taken (withItems [i] crane)) 7 = false ∧
      underClaim (taken (withClaim (claimIn .announced) (withItems [i] crane))) 7 = true) ∧
    pointInRange ⟨1000000, -1000000, 0⟩ = true := by
  refine ⟨by decide +kernel, by decide +kernel, by decide +kernel, by decide +kernel, by decide +kernel,
    notOwned_of (by decide +kernel), ⟨_, List.mem_cons_self .., by decide +kernel⟩, ?_⟩
  decide +kernel

/-- The code of class 3 against itself is each of 0 to 4. -/
def codeOf3 (v : Int) : Segregation :=
  ⟨List.replicate 2 (List.replicate 9 0) ++ [[0, 0, v, 0, 0, 0, 0, 0, 0]] ++ List.replicate 6 (List.replicate 9 0), 3000, 6000, 12000⟩

theorem witness_SegregationTestsEveryKnownItem :
    (∀ v ∈ [(0 : Int), 1, 2, 3, 4], segregationCode (codeOf3 v) 3 3 = v ∧
      (codeOf3 v).matrix[3 - 1]? = some [0, 0, v, 0, 0, 0, 0, 0, 0] ∧ [0, 0, v, 0, 0, 0, 0, 0, 0][3 - 1]? = some v) ∧
    (stowed7.stowed = some ⟨61500, 2000, 3500⟩ ∧ (landed7 .inbound true ⟨1, 2, 3⟩).stowed = none ∧
      (landed7 .inbound true ⟨1, 2, 3⟩).landing = some ⟨⟨1, 2, 3⟩, true⟩ ∧ unit7.stowed = none ∧ unit7.landing = none) ∧
    topMove 7 [.move 7 ⟨1, 2, 3⟩ 1 false, .move 7 ⟨4, 5, 6⟩ 2 false, .move 7 ⟨7, 8, 9⟩ 3 true] = some (⟨4, 5, 6⟩, 2) := by
  decide +kernel

theorem witness_PlanningRequests :
    ((portKept crane ∧ admits 1 crane ∧ addItemRefusal args1 (taken crane) = none ∧
      (∀ j ∈ (taken crane).stowage.items, j.number ≠ 1)) ∧
      (addItemRefusal args9 (taken (withItems item13 crane)) = none ∧
        (∀ j ∈ (taken (withItems item13 crane)).stowage.items, j.number ≠ 2) ∧
        ∀ m, 1 ≤ m → m < 2 → ∃ j ∈ (taken (withItems item13 crane)).stowage.items, j.number = m) ∧
      ∀ m, 1 ≤ m → m < 1 → ∃ j ∈ (taken crane).stowage.items, j.number = m) ∧
    (∀ i ∈ [unit7, stowed7, plannedOut7], findItem 7 (taken (withItems [i] crane)).stowage.items = some i ∧
      underClaim (taken (withItems [i] crane)) 7 = false ∧ (taken (withItems [i] crane)).role ≠ .tank ∧
      (∀ code ∈ [2, 3, 4], admits code (withItems [i] crane))) ∧
    portKept (withItems [unit7] crane) ∧
    (itemArgsInRange (taken (withItems [unit7] crane)) args9 = true ∧
      amendRefusal unit7 args9 (taken (withItems [unit7] crane)) = none) ∧
    (findItem 255 fiveItems).map (·.state) = some .plannedOut ∧ (findItem 1 fiveItems).map (·.state) = some .stowed := by
  refine ⟨⟨⟨portKept_of_idle rfl rfl, by decide +kernel, by decide +kernel, by decide +kernel⟩,
    ⟨by decide +kernel, by decide +kernel, fun m h1 h2 => ⟨{ unit7 with number := 1 }, by decide +kernel, ?_⟩⟩,
    fun m h1 h2 => by omega⟩, by decide +kernel, portKept_of_idle rfl rfl, ?_⟩
  · show (1 : Nat) = m
    omega
  · decide +kernel

theorem witness_DirectMoves :
    (portKept (withItems [unit7] crane) ∧ admits 5 (withItems [unit7] crane) ∧
      (taken (withItems [unit7] crane)).role ≠ .tank ∧
      findItem 7 (taken (withItems [unit7] crane)).stowage.items = some unit7 ∧
      underClaim (taken (withItems [unit7] crane)) 7 = false) ∧
    (placeInRange (taken crane) none none = true ∧ placeInRange (taken crane) (some args3.pos) (some 1) = true ∧
      placementRefusal (taken (withItems [unit7] crane)) unit7.planned 1 1850 8000 4500 = none) ∧
    (admits 6 (withItems [plannedOut7] crane) ∧ plannedOut7.state = .plannedOut) := by
  refine ⟨⟨portKept_of_idle rfl rfl, ?_⟩, ?_⟩ <;> decide +kernel

def unresolvedCrane : State := withItems [unresolved7] crane

theorem witness_ResolveItem :
    portKept unresolvedCrane ∧ admits 7 unresolvedCrane ∧ (taken unresolvedCrane).role ≠ .tank ∧
      findItem 7 (taken unresolvedCrane).stowage.items = some unresolved7 ∧ unresolved7.state = .unresolved ∧
      (pointInRange ⟨61500, 2000, 3500⟩ = true ∧ compInRange (taken unresolvedCrane) 1 = true ∧
        placementRefusal (taken unresolvedCrane) ⟨61500, 2000, 3500⟩ 1 1850 8000 4500 = none) ∧
      (pointInRange ⟨1000000, -1000000, 0⟩ = true ∧
        placementRefusal (taken unresolvedCrane) ⟨1000000, -1000000, 0⟩ 1 1850 8000 4500 = some .outOfCompartment) := by
  refine ⟨portKept_of_idle rfl rfl, ?_⟩
  decide +kernel

def aboard7 : Item := landed7 .inbound true ⟨61500, 2000, 3500⟩
def aboardOut7 : Item := landed7 .outbound true ⟨61500, 2000, 3500⟩
def ashore7 (d : Direction) : Item := landed7 d false ⟨62000, 19400, 9000⟩
def committed (i : Item) : State := withClaim (claimIn .committed) (withItems [i] crane)

theorem claimKept_congr {s t : State} (hc : s.claim = t.claim) (hs : s.station = t.station) (h : claimKept t) :
    claimKept s := by
  unfold claimKept at h ⊢
  rwa [hc, hs]

theorem claimKept_committed (i : Item) : claimKept (committed i) :=
  claimKept_congr (t := withClaim (claimIn .committed) crane) rfl rfl ⟨⟨_, rfl, rfl⟩, by decide +kernel⟩

theorem stowageKept_committed {i : Item} (h : listKept [i]) : stowageKept (committed i) := stowageKept_of h rfl

theorem landed_kept (d : Direction) (b : Bool) (p : Point) : listKept [landed7 d b p] :=
  ⟨by simp, by simp, by simp [landed7, unit7, itemShape]⟩

theorem witness_SetDownStowsReturnsOrDischarges :
    (∀ i ∈ [aboard7, aboardOut7, ashore7 .inbound, ashore7 .outbound],
      portKept (committed i) ∧ claimKept (committed i) ∧ stowageKept (committed i)) ∧
    (∀ i ∈ [aboard7, aboardOut7, ashore7 .inbound, ashore7 .outbound],
      admits 16 (committed i) ∧ (taken (committed i)).role = .crane ∧ i.state = .landed ∧ i.landing.isSome = true ∧
      setDownTarget none (taken (committed i)) = some i ∧ setDownTarget (some 7) (taken (committed i)) = some i ∧
      setDownTarget none (taken (withItems [i] crane)) = some i ∧ underClaim (taken (withItems [i] crane)) 7 = false ∧
      underClaim (taken (committed i)) 7 = true ∧ (taken (committed i)).claim.state = .committed) ∧
    (placeInRange (taken crane) none none = true ∧ (some 255).all itemInRange = true) ∧
    (setDownPlace (taken (committed aboard7)) aboard7 none none = some (⟨61500, 2000, 3500⟩, 1) ∧
      setDownPlace (taken (committed aboardOut7)) aboardOut7 none none = some (⟨61500, 2000, 3500⟩, 1) ∧
      placementRefusal (taken (committed aboard7)) ⟨61500, 2000, 3500⟩ 1 1850 8000 4500 = none) ∧
    (aboard7.direction ≠ some .outbound ∧ (ashore7 .inbound).direction ≠ some .outbound) := by
  refine ⟨?_, ?_⟩
  · intro i hi
    refine ⟨portKept_of_idle rfl rfl, claimKept_committed i, stowageKept_committed ?_⟩
    simp [aboard7, aboardOut7, ashore7] at hi
    rcases hi with rfl | rfl | rfl | rfl <;> exact landed_kept ..
  · decide +kernel

def outside7 : Item := landed7 .outbound true ⟨71000, 0, 2000⟩

theorem witness_SetDownTargetPlaceAndRefusals :
    ((committed aboard7).claim.state = .committed ∧ (committed aboard7).claim.record = some (record12 (some .committed)) ∧
      crane.claim.state ≠ .committed) ∧
    (aboard7.direction ≠ some .outbound ∧ aboardOut7.direction = some .outbound ∧
      aboardOut7.landing = some ⟨⟨61500, 2000, 3500⟩, true⟩) ∧
    (admits 16 desk ∧ (taken desk).role ≠ .crane ∧ admits 16 crane ∧ (taken crane).role = .crane) ∧
    (placeInRange (taken crane) (some ⟨0, 0, 0⟩) none = false ∧ (some 0).all itemInRange = false ∧
      placeInRange (taken crane) none none = true ∧ setDownTarget none (taken crane) = none) ∧
    (setDownTarget (some 7) (taken (withItems [slung7] crane)) = some slung7 ∧ slung7.state = .slung ∧
      setDownTarget (some 7) (taken (withItems [unit7] crane)) = some unit7 ∧ unit7.state ≠ .landed) ∧
    (setDownTarget (some 7) (taken (withClaim (claimIn .announced) (withItems [aboard7] crane))) = some aboard7 ∧
      underClaim (taken (withClaim (claimIn .announced) (withItems [aboard7] crane))) 7 = true ∧
      (taken (withClaim (claimIn .announced) (withItems [aboard7] crane))).claim.state ≠ .committed) ∧
    (setDownPlace (taken (committed outside7)) outside7 none none = none ∧
      setDownPlace (taken (committed aboard7)) aboard7 (some ⟨1, 2, 3⟩) (some 4) = some (⟨1, 2, 3⟩, 4) ∧
      placementRefusal (taken (committed aboard7)) ⟨1, 2, 3⟩ 4 1850 8000 4500 = some .notOwned) := by decide +kernel

/-! ### Witnesses: the classed-item map, TAGs and trials -/

def tag12 (present : Bool) (cls : Nat) : TagBody := ⟨12, cls, present, 1, -2, 4⟩
def map48 (s : State) : State :=
  s.setStowage { s.stowage with map := (List.range 48).map (fun n => ⟨5, n + 1, 3, 0, 0, 1⟩) }

theorem witness_TagFramesAndListTags :
    (∀ q ∈ [(true, 9), (true, 1), (true, 0), (true, 10), (false, 9)],
      frameTaken ⟨6, .tag (tag12 q.1 q.2)⟩ (bytesOf 6 (.tag (tag12 q.1 q.2))) (elapse 0 (map48 crane))) ∧
    working (elapse 0 (map48 crane)) = true ∧ (tag12 true 9).comp ≤ (elapse 0 (map48 crane)).img.compartments.length ∧
    ((∃ e ∈ (elapse 0 (map48 crane)).stowage.map, e.station = 5 ∧ e.item = 12) ∧
      ¬ ∃ e ∈ (elapse 0 (map48 crane)).stowage.map, e.station = 6 ∧ e.item = 12) ∧
    frameTaken ⟨5, .tag (tag12 true 9)⟩ (bytesOf 5 (.tag (tag12 true 9))) (elapse 0 (map48 crane)) ∧
    frameTaken ⟨5, .tag (tag12 false 9)⟩ (bytesOf 5 (.tag (tag12 false 9))) (elapse 0 (map48 crane)) ∧
    (48 ≤ (elapse 0 (map48 crane)).stowage.map.length ∧ (elapse 0 crane).stowage.map.length < 48) ∧
    (let u := elapse 0 (station craneSection .fault);
      frameTaken ⟨6, .tag (tag12 true 9)⟩ (bytesOf 6 (.tag (tag12 true 9))) u ∧ working u = false) ∧
    (let s := crane.setStowage ⟨[], List.replicate 47 ⟨6, 1, 3, 0, 0, 1⟩, true, some 10000⟩;
      working s = true ∧ s.stowage.mapIncomplete = true ∧ s.stowage.map.length < 48 ∧
        s.stowage.settleStart = some 10000 ∧ s.station.timer + 129999 < 10000 + 130000 ∧
        10000 + 130000 ≤ s.station.timer + 130000) ∧
    (let q31 := crane.setLink { crane.link with queue := List.replicate 31 (.yield 1) ++ [.tag ⟨7, 3, true, 0, 0, 1⟩] };
      unit7.cls = some 3 ∧ (q31.link.queue.filter (fun f => !isTagFor 7 f)).length < 32) ∧
    (full.station.state ≠ .halt ∧ 32 ≤ (full.link.queue.filter (fun f => !isTagFor 7 f)).length) ∧
    ((none : Option Item).bind (·.cls) = none ∧ (some { unit7 with cls := none }).bind (·.cls) = none ∧
      { unit7 with cls := none }.cls = none) := by decide +kernel

def addEntry : TrialEntry := .add 50 ⟨60000, 0, 2000⟩ 1 1000 1000 none
def addArgs : TrialAddArgs := ⟨50, ⟨60000, 0, 2000⟩, 1, 1000, 1000, none⟩
def moveEntry (voided : Bool) : TrialEntry := .move 7 ⟨60000, 0, 2000⟩ 1 voided
def moveArgs : TrialMoveArgs := ⟨7, ⟨60000, 0, 2000⟩, 1⟩
def seven (s : State) : State := withTrial (List.replicate 7 addEntry) s

theorem witness_TrialStackRequests :
    (admits 9 (seven crane) ∧ trialAddRefusal addArgs (used (seven crane)) = none ∧ admits 9 crane ∧
      trialAddRefusal addArgs (used crane) = none) ∧
    (admits 10 (seven (withItems [unit7] crane)) ∧ trialMoveEarly moveArgs (used (seven (withItems [unit7] crane))) = none ∧
      findItem 7 (used (seven (withItems [unit7] crane))).stowage.items = some unit7 ∧
      trialMoveRefusal moveArgs unit7 (used (seven (withItems [unit7] crane))) = none) ∧
    (admits 11 crane ∧ admits 12 crane ∧ (taken crane).role ≠ .tank ∧ (taken crane).trial = [] ∧
      (taken (withTrial [addEntry] crane)).trial = [] ++ [addEntry] ∧ (taken (withTrial [addEntry] crane)).trial ≠ []) ∧
    (requestOf (.trialDrop 0 ⟨5, false⟩) = some (11, 5) ∧ requestOf (.trialClear 0 ⟨5, true⟩) = some (12, 5) ∧ admits 11 tank ∧
      admits 12 tank ∧ (taken tank).role = .tank) := by
  decide +kernel

def eight (s : State) : State := withTrial (List.replicate 8 addEntry) s
def badEntry : TrialEntry := .add 50 ⟨60000, 0, 2000⟩ 4 1000 1000 none

theorem witness_TrialRequestsRefusedInOrder :
    ((∀ code ∈ [9, 10, 13], admits code tank ∧ admits code crane) ∧ (used tank).role = .tank ∧ (used crane).role ≠ .tank ∧
      requestOf (.trialAdd 0 5 none) = some (9, 5) ∧ requestOf (.trialMove 0 5 (some moveArgs)) = some (10, 5)) ∧
    (¬ (1 ≤ (0 : Int)) ∧ (1 ≤ addArgs.mass ∧ addArgs.mass ≤ 100000 ∧ pointInRange addArgs.pos = true ∧ 1 ≤ addArgs.comp ∧
        addArgs.comp ≤ (used crane).img.compartments.length ∧ 100 ≤ addArgs.length ∧ addArgs.length ≤ 30000 ∧
        100 ≤ addArgs.breadth ∧ addArgs.breadth ≤ 30000 ∧ ∀ c ∈ addArgs.cls, 1 ≤ c ∧ c ≤ 9) ∧
      8 ≤ (used (eight crane)).trial.length ∧ (used (seven crane)).trial.length < 8 ∧
      (some 9 : Option Nat).isSome = true ∧ (used (incomplete crane)).stowage.mapIncomplete = true ∧
      (used (mapped crane)).stowage.mapIncomplete = false) ∧
    (placementRefusal (used crane) ⟨60000, 0, 2000⟩ 4 50 1000 1000 = some .notOwned ∧
      placementRefusal (used (mapped crane)) ⟨61500, 2000, 3500⟩ 1 1850 8000 4500 = none ∧
      trialSegregated (used (mapped crane)) none (some 3) ⟨61500, 2000, 3500⟩ 1 [] = true ∧
      trialSegregated (used (mapped (withItems [unit7] crane))) (some 7) unit7.cls ⟨61500, 2000, 3500⟩ 1 [] = true) ∧
    (1 ≤ moveArgs.item ∧ moveArgs.item ≤ 255 ∧ pointInRange moveArgs.pos = true ∧ 1 ≤ moveArgs.comp ∧
      moveArgs.comp ≤ (used crane).img.compartments.length ∧ ¬ (1 ≤ 0) ∧ ¬ (256 ≤ 255)) ∧
    (findItem 7 (used crane).stowage.items = none ∧
      findItem 7 (used (withItems [stowed7] crane)).stowage.items = some stowed7 ∧ stowed7.state ≠ .plannedIn ∧
      unit7.state = .plannedIn ∧ underClaim (used (withItems [unit7] crane)) 7 = false ∧
      underClaim (used (withClaim (claimIn .announced) (withItems [unit7] crane))) 7 = true) ∧
    ((used crane).trial = [] ∧
      .move 7 ⟨60000, 0, 2000⟩ 1 false ∈ (used (withTrial [moveEntry false] (withClaim (claimIn .announced) crane))).trial ∧
        underClaim (used (withTrial [moveEntry false] (withClaim (claimIn .announced) crane))) 7 = true) ∧
    ((used (withTrial [addEntry] (withItems items64 crane))).trial ≠ [] ∧
      (used (withTrial [addEntry] (withItems items64 crane))).claim.state = .none ∧
      64 < (used (withTrial [addEntry] (withItems items64 crane))).stowage.items.length + countAdds [addEntry]) ∧
    (.add 50 ⟨60000, 0, 2000⟩ 1 1000 1000 (some 9) ∈
        (used (withTrial [.add 50 ⟨60000, 0, 2000⟩ 1 1000 1000 (some 9)] (incomplete crane))).trial ∧
      (used (incomplete crane)).stowage.items.length + 1 ≤ 64 ∧
      .move 7 ⟨60000, 0, 2000⟩ 1 false ∈ (used (withTrial [moveEntry false] (incomplete (withItems [unit7] crane)))).trial ∧
      findItem 7 (used (incomplete (withItems [unit7] crane))).stowage.items = some unit7 ∧ unit7.cls ≠ none) ∧
    (adoptEarly (used (withTrial [addEntry, badEntry] crane)) = none ∧
      (used (withTrial [addEntry, badEntry] crane)).trial = [addEntry] ++ badEntry :: [] ∧
      entryRefusal (used (withTrial [addEntry, badEntry] crane)) [] addEntry = none ∧
      entryRefusal (used (withTrial [addEntry, badEntry] crane)) [addEntry] badEntry = some .notOwned) := by
  refine ⟨by decide +kernel, by decide +kernel, by decide +kernel, by decide +kernel, ?_⟩
  decide +kernel

/-- In the last clause, the entries below the first are below it alone. -/
theorem witness_TrialAdopt_below : ∀ as o bs, [addEntry] = as ++ o :: bs →
    entryRefusal (used (withTrial [addEntry, badEntry] crane)) as o = none := by
  intro as o bs h
  cases as with
  | nil =>
    cases h
    decide +kernel
  | cons a rest => simp at h

theorem witness_TrialAdoptAppliesTheStack :
    (movesKept planning ∧ admits 13 planning ∧ adoptEarly (used planning) = none ∧
      stackRefusal (used planning) [] (used planning).trial = none ∧ (used planning).trial.all isVoid = false) ∧
    ((admits 13 (withTrial [moveEntry true] crane) ∧ adoptEarly (used (withTrial [moveEntry true] crane)) = none ∧
        stackRefusal (used (withTrial [moveEntry true] crane)) [] (used (withTrial [moveEntry true] crane)).trial = none ∧
        (used (withTrial [moveEntry true] crane)).trial.all isVoid = true) ∧
      movesKept (withTrial [moveEntry true] crane)) := by
  refine ⟨⟨planning_kept, by decide +kernel⟩, by decide +kernel, fun n p c h => ?_⟩
  change _ ∈ [moveEntry true] at h
  simp [moveEntry] at h

theorem witness_AdoptionKeepsFinal :
    stowageKept planning ∧ movesKept planning ∧ admits 13 planning ∧ adoptEarly (asUsed 0 planning) = none ∧
      stackRefusal (asUsed 0 planning) [] (asUsed 0 planning).trial = none ∧
      ∃ t, exec (.trialAdopt 0 ⟨5, true⟩) planning = .next t :=
  ⟨stowageKept_of fiveItems_kept rfl, planning_kept, by decide +kernel, by decide +kernel, by decide +kernel, _, rfl⟩

/-! ### Witnesses: lift claims -/

def lift7 : LiftArgs := ⟨7, 3, 1023, 1023, 4000⟩

theorem witness_LiftRequestProbesOrIsRefused :
    (∀ i ∈ [unit7, plannedOut7],
      let s := withItems [i] (withHook 49 crane)
      admits 14 s ∧ (used s).role = .crane ∧ lift7.cls ≤ 3 ∧ lift7.a1 ≤ 1023 ∧ lift7.a2 ≤ 1023 ∧
        (used s).craneData.rmin ≤ lift7.maxRadius ∧ lift7.maxRadius ≤ (used s).craneData.rmax ∧
        (used s).claim.state = .none ∧ findItem 7 (used s).stowage.items = some i ∧
        (i.state = .plannedIn ∨ i.state = .plannedOut) ∧ i.mass + (used s).craneData.rigging ≤ (used s).craneData.swl ∧
        (used s).crane.held = some (hook 49 768) ∧ (hook 49 768).load < (used s).craneData.pick) ∧
    (admits 14 desk ∧ (used desk).role ≠ .crane ∧ admits 14 crane ∧ ¬ (1 ≤ 0) ∧ ¬ ((used crane).craneData.rmin ≤ 3999) ∧
      (used (withClaim (claimIn .probing) crane)).claim.state ≠ .none ∧ findItem 7 (used crane).stowage.items = none) ∧
    (findItem 7 (used (withItems [stowed7] crane)).stowage.items = some stowed7 ∧ stowed7.state ≠ .plannedIn ∧
      stowed7.state ≠ .plannedOut) ∧
    ((used crane).craneData.swl < { unit7 with mass := 2461 }.mass + (used crane).craneData.rigging ∧
      (used crane).crane.held = none ∧ (used (withHook 50 crane)).crane.held = some (hook 50 768) ∧
      (used (withHook 50 crane)).craneData.pick ≤ (hook 50 768).load) := by decide +kernel

theorem witness_LiftAbortByClaimState :
    (∀ st ∈ [ClaimState.none, .probing, .announced, .backoff, .committed],
      let s := withClaim (claimIn st) (withItems [unit7] crane)
      portKept s ∧ admits 15 s ∧ (used s).role = .crane ∧ (used s).claim.state = st) ∧
    (claimKept crane ∧ claimKept (withClaim (claimIn .probing) crane) ∧ claimKept (withClaim (claimIn .backoff) crane) ∧
      claimKept (withClaim (claimIn .announced) crane)) ∧
    (∀ i ∈ [unit7, plannedOut7, slung7, aboard7], claimKept (committed i) ∧
      (used (committed i)).claim.record = some (record12 (some .committed)) ∧
      findItem (record12 (some .committed)).item (used (committed i)).stowage.items = some i) ∧
    (unit7.state = .plannedIn ∧ slung7.state = .slung ∧ aboard7.state = .landed ∧ admits 15 desk ∧
      (used desk).role ≠ .crane ∧ journalRoom (used full) = false ∧ journalRoom (used crane) = true) := by
  refine ⟨?_, ⟨⟨rfl, by decide +kernel⟩, ⟨⟨_, rfl, rfl⟩, by decide +kernel⟩, ⟨⟨_, rfl, rfl⟩, by decide +kernel⟩,
    ⟨⟨_, rfl, rfl⟩, by decide +kernel⟩⟩, fun i hi => ⟨claimKept_committed i, ?_⟩, by decide +kernel⟩
  · intro st hst
    simp only [List.mem_cons, List.not_mem_nil, or_false] at hst
    rcases hst with rfl | rfl | rfl | rfl | rfl <;> exact ⟨portKept_of_idle rfl rfl, by decide +kernel⟩
  · revert i
    decide +kernel

/-- A condition that sees the own claim in a state, with the counts of a LIFT. -/
def seen (st : ClaimState) (v : Verdict) (time peers : Nat) : CondBody :=
  { passNumber := 3, snapshotTime := time, clean := true, strengthJudged := true
    included := some ⟨1, peers, 1, 0, 0⟩, ownSeen := some ⟨st, some 12⟩, delta := 90000, centres := none, solved := none
    verdict := v }

def passing (s : State) : State := s.setSolver { s.solver with pass := some (snapshotOf s) }

theorem witness_PublishDecidesClaim :
    (∀ st ∈ [ClaimState.probing, .announced, .backoff, .committed],
      let u := withClaim (claimIn st) crane
      u.station.state = .run ∧ u.claim.record.map (·.number) = some 12 ∧ u.claim.state = st ∧
        (seen st .amber 10399 0).ownSeen = some ⟨st, some 12⟩) ∧
    (let u := elapse 0 (passing (withClaim (claimIn .probing) crane));
      working u = true ∧ u.solver.pass.map (·.claimState) = some .probing ∧ u.role ≠ .tank ∧
        (u.solver.pass.map (fun w => (probeRecord (passInput w u) 1).isSome)) = some true ∧
        (passing crane).solver.pass.map (·.claimState) ≠ some .probing) ∧
    ((seen .probing .green 0 0).verdict = .green ∧ ¬ ((seen .probing .void 0 0).verdict = .green ∨
      (seen .probing .void 0 0).verdict = .amber)) ∧
    ({ claimIn .probing with pending := true }.pending = true ∧ (claimIn .probing).pending = false ∧
      { claimIn .probing with withdrawals := 1 }.withdrawals < 2 ∧
      2 ≤ { claimIn .probing with withdrawals := 2 }.withdrawals) ∧
    ((claimIn .announced).holdExpiry = some 10400 ∧ (seen .announced .green 10399 0).snapshotTime < 10400 ∧
      10400 ≤ (seen .announced .green 10400 0).snapshotTime) ∧
    ((seen .committed .red 0 1).verdict = .red ∧ (seen .committed .red 0 1).included = some ⟨1, 1, 1, 0, 0⟩ ∧
      (seen .committed .red 0 0).included.map (·.peersCommitted) = some 0 ∧ (seen .committed .void 0 0).verdict ≠ .red) ∧
    ((claimIn .backoff).state = .backoff ∧ (seen .probing .red 0 0).ownSeen ≠ some ⟨.probing, some 13⟩) := by
  decide +kernel

theorem witness_ClaimTimers :
    ((withClaim (claimIn .backoff) crane).station.state = .run ∧ (claimIn .backoff).backoffExpiry = some 11000 ∧
      (elapse 999 (withClaim (claimIn .backoff) crane)).now < 11000 ∧
      11000 ≤ (elapse 1000 (withClaim (claimIn .backoff) crane)).now) ∧
    ((claimIn .committed).commitTime = some 9500 ∧ (claimIn .committed).overdue = false ∧
      (elapse 599499 crane).now < 9500 + (elapse 0 crane).craneData.liftTimeLimit.toNat * 60000 ∧
      9500 + (elapse 0 crane).craneData.liftTimeLimit.toNat * 60000 ≤ (elapse 599500 crane).now) ∧
    { claimIn .committed with overdue := true }.overdue = true := by decide +kernel

/-! ### Witnesses: crane sensing, permits and lines -/

def hookBytes (load : Int) : List Byte := encodeHook ⟨load, 65535, 7000, 4000, some (-32768)⟩
def carrying (s : State) : State := s.setCrane { s.crane with carrying := true, lastLoaded := some ⟨62000, 2000, 4100⟩ }

theorem witness_HookRecordIsHeld_claim :
    claimKept crane ∧ claimKept (withClaim (claimIn .committed) crane) ∧ claimKept (carrying crane) ∧
      claimKept listening ∧ claimKept (station craneSection .quiet) :=
  ⟨⟨rfl, by decide +kernel⟩, ⟨⟨_, rfl, rfl⟩, by decide +kernel⟩, ⟨rfl, by decide +kernel⟩, ⟨rfl, by decide +kernel⟩,
    ⟨rfl, by decide +kernel⟩⟩

theorem witness_HookRecordIsHeld :
    (∀ load ∈ [-100000, 19, 20, 49, 50, 1000000],
      hookRecordOf (hookBytes load) = some ⟨load, 65535, 7000, 4000, some (-32768)⟩) ∧
    (∀ s ∈ [crane, withClaim (claimIn .committed) crane, carrying crane, listening, station craneSection .quiet],
      working (elapse 0 s) = true ∧ takesInputs (elapse 0 s) = true ∧ (elapse 0 s).role = .crane ∧
        (elapse 0 s).craneData.release ≤ (elapse 0 s).craneData.pick) ∧
    (crane.crane.carrying = false ∧ (elapse 0 crane).craneData.pick ≤ clamp 0 (2 * (elapse 0 crane).craneData.swl) 50 ∧
      crane.claim.state ≠ .committed ∧ (station craneSection .quiet).station.state = .quiet) ∧
    ((carrying crane).crane.carrying = true ∧
      clamp 0 (2 * (elapse 0 crane).craneData.swl) 19 < (elapse 0 crane).craneData.release) ∧
    ((withClaim (claimIn .committed) crane).claim.record = some (record12 (some .committed)) ∧
      crane.crane.overload = false) ∧
    ((hookTerm (elapse 0 crane)).isSome = false ∧ (hookTerm (elapse 0 (withHook 50 crane))).isSome = true) ∧
    (let d := (elapse 0 crane).craneData;
      (¬ d.hookMassThreshold < (100 - 50 : Int).natAbs ∧ d.hookMassThreshold < (101 - 50 : Int).natAbs) ∧
        ¬ d.hookPosThreshold < (62000 - 61500 : Int).natAbs ∧ d.hookPosThreshold < (62000 - 61499 : Int).natAbs) := by
  decide +kernel

theorem witness_PicksAndReleasesMoveTheItem :
    stowageKept (committed aboard7) ∧ stowageKept (carrying (committed slung7)) ∧ (unit7.state = .plannedIn ∧
      slung7.state ≠ .plannedIn) ∧
    (∀ i ∈ [unit7, plannedOut7, aboard7],
      working (elapse 0 (committed i)) = true ∧ takesInputs (elapse 0 (committed i)) = true ∧
        (elapse 0 (committed i)).role = .crane ∧ (elapse 0 (committed i)).crane.carrying = false ∧
        (elapse 0 (committed i)).claim.state = .committed ∧
        (elapse 0 (committed i)).claim.record = some (record12 (some .committed)) ∧
        findItem (record12 (some .committed)).item (elapse 0 (committed i)).stowage.items = some i ∧
        (elapse 0 (committed i)).craneData.pick ≤ clamp 0 (2 * (elapse 0 crane).craneData.swl) 50) ∧
    (let u := elapse 0 (carrying (committed slung7));
      u.crane.carrying = true ∧ clamp 0 (2 * u.craneData.swl) 19 < u.craneData.release ∧
        u.crane.lastLoaded = some ⟨62000, 2000, 4100⟩ ∧ u.stowage.items = [] ++ slung7 :: [] ∧ slung7.state = .slung) ∧
    (hookRecordOf (hookBytes 50)).isSome = true ∧ (hookRecordOf (hookBytes 19)).isSome = true :=
  ⟨stowageKept_committed (landed_kept _ _ _), stowageKept_of ⟨by decide +kernel, by decide +kernel, fun i hi => by
    obtain rfl : i = slung7 := List.mem_singleton.mp hi
    exact ⟨by decide, by decide, rfl, rfl, rfl⟩⟩ rfl, by decide +kernel⟩

def portOf (p : PortState) (last : Option Nat) (s : State) : State :=
  s.setSensor { Sensor.cleared with port := p, lastRecord := last }

/-- A peer whose base brings the fixtures' ship into the table: a mass, its heeling moment, its height and its moment aft. -/
def heavy6 (m my z aft : Int) : PeerEntry :=
  { peer6 with share := some { share0 with base := ⟨m, m * 67000, my, m * z, 0, [⟨25000, aft⟩]⟩ } }

/-- Station 4 aboard a ship of 90,500 dt that heels by `my`, while a pass stands. -/
def craneAfloat (my z : Int) : State := passing (withPeers [heavy6 48500 my z 500000000] crane)

/-- The heel an ACTUAL of the station's pass finds. -/
def heelFound (s : State) : Option Int :=
  (actualRecord (passInput (snapshotOf s) s) 1).body.bind (fun b => b.solved.bind (·.heel))

theorem witness_SensorPortTimers :
    (∀ s ∈ [crane, tank], working (elapse 0 s) = true ∧ (elapse 0 s).role ≠ .desk ∧ takesInputs (elapse 0 s) = true) ∧
    ((elapse 0 desk).role = .desk ∧ ∀ s ∈ [State.reset, station craneSection .fault, station tankSection .halt],
      working (elapse 0 s) = false) ∧
    ((portOf .fresh (some 10000) crane).sensor.port = .fresh ∧ (elapse 299 crane).now < 10000 + 300 ∧
      10000 + 300 ≤ (elapse 300 crane).now) ∧
    ((portOf .holding (some 10000) crane).sensor.port ≠ .lost ∧ (elapse 1299 crane).now < 10000 + 1300 ∧
      10000 + 1300 ≤ (elapse 1300 crane).now) ∧
    (crane.sensor.port = .lost ∧ crane.sensor.lastRecord = none ∧ crane.sensor.lostReported = false ∧
      crane.station.listenAt = some 5000 ∧ 5000 + 1300 ≤ (elapse 0 crane).now) ∧
    (let s := station craneSection .listen;
      ¬ (elapse 0 s).now < 5000 + 1300 ∧ (elapse 0 (s.setStation { s.station with timer := 6299 })).now < 5000 + 1300) ∧
    (hookRecordOf [1, 2] = none ∧ levelsOf (elapse 0 tank).ownTanks.length [2, 2] = none) := by decide +kernel

/-- The crane under claim 12 at offsets 0, 512 and 513 of its sector, and at its radius limit. -/
def gated (slew : Nat) : State :=
  ((withClaim (claimIn .committed) crane).setCrane
    { crane.crane with held := some ⟨1990, slew, 23199, 4000⟩, verdict := .amber }).setSensor
    { Sensor.cleared with port := .fresh, lastRecord := some 10000 }

theorem witness_PermitsFollowClaimAndHook :
    (crane.role = .crane ∧ (withHook 0 crane).crane.held = some (hook 0 768)) ∧
    (∀ s ∈ [withHook 0 crane, gated 768, withHook 0 (withClaim (claimIn .announced) crane)],
      (s.station.state = .run ∨ s.station.state = .quiet) ∧ s.sensor.port = .fresh ∧
        (∀ n ∈ lineNumbers, lineFunction s n = some .localStop → (lineInput s n).filtered = false) ∧
        s.crane.unclaimed = false) ∧
    (¬ (crane.sensor.port = .fresh) ∧ { Crane.cleared with unclaimed := true }.unclaimed = true) ∧
    (∀ q ∈ [(768, 0), (256, 512), (257, 513)],
      (gated q.1).claim.state = .committed ∧ (gated q.1).claim.record = some (record12 (some .committed)) ∧
        ((gated q.1).crane.verdict = .green ∨ (gated q.1).crane.verdict = .amber) ∧
        (768 + q.2) % 1024 = (⟨1990, q.1, 23199, 4000⟩ : HookValues).slew % 1024 ∧ q.2 < 1024) ∧
    ((768 + 512) % 1024 = 256 ∧ 768 ≠ 256 ∧ 512 ≤ 512 ∧ 512 < 513) ∧
    (¬ ((Crane.cleared).verdict = .green ∨ (Crane.cleared).verdict = .amber)) := by decide +kernel

/-- Line `n` of a state at an on level since a time. -/
def lineOn (n : Nat) (since : Nat) (s : State) : State :=
  s.setLines { s.lines with inputs := s.lines.inputs.set (n - 1) ⟨true, since, false⟩ }

theorem witness_LinesAreFilteredAndDriven :
    (∀ n ∈ [1, 12], 1 ≤ n ∧ n ≤ 12 ∧ (lineInput (elapse 0 crane) n).raw ≠ true) ∧
    ((elapse 19 (lineOn 5 10000 crane)).now < (lineInput (lineOn 5 10000 crane) 5).since + 20 ∧
      (lineInput crane 5).filtered = lineLevel crane 5 ∧ lineSampled crane 1 = false) ∧
    (∀ q ∈ [(5, LineFunction.input), (3, .localStop), (4, .setdownButton)],
      let u := elapse 20 (lineOn q.1 10000 crane);
      takesInputs u = true ∧ (lineInput u q.1).since + 20 ≤ u.now ∧ (lineInput u q.1).filtered ≠ lineLevel u q.1 ∧
        lineFunction u q.1 = some q.2 ∧ q.1 ≤ u.lines.inputs.length ∧ lineLevel u q.1 = true) ∧
    (let s := crane.setLines { crane.lines with inputs := crane.lines.inputs.set 3 ⟨false, 10000, true⟩ };
      (lineInput (elapse 20 s) 4).filtered ≠ lineLevel (elapse 20 s) 4 ∧ lineLevel (elapse 20 s) 4 = false) ∧
    ((∃ r, setDownEffect none none none (activity (elapse 20 (lineOn 4 10000 crane))) = .inl r) ∧
      ∃ w, setDownEffect none none none (activity (elapse 20 (lineOn 4 10000 (committed aboard7)))) = .inr w) ∧
    ((∃ r, setDownEffect none none none (taken crane) = .inl r) ∧
      (∃ w, setDownEffect none none none (taken (committed aboard7)) = .inr w) ∧
      ∀ s ∈ [crane, committed aboard7], portKept s ∧ admits 16 s ∧ (taken s).role = .crane) ∧
    (State.reset.lineEntry 1 = none ∧ crane.lineEntry 1 = some ⟨.plain, some .hoistPermit⟩ ∧
      crane.lineEntry 2 = some ⟨.inverted, some .alarm⟩ ∧ tank.lineEntry 1 = some ⟨.plain, some .pumpPs⟩) ∧
    (safeState (low ⟨true, false, false, some .brownOut, true⟩) = true ∧ safeState crane = false) := by
  refine ⟨by decide +kernel, by decide +kernel, by decide +kernel, by decide +kernel, ⟨⟨_, rfl⟩, ⟨_, rfl⟩⟩,
    ⟨⟨_, rfl⟩, ⟨_, rfl⟩, fun s hs => ⟨?_, ?_⟩⟩, by decide +kernel⟩
  · simp only [List.mem_cons, List.not_mem_nil, or_false] at hs
    rcases hs with rfl | rfl <;> exact portKept_of_idle rfl rfl
  · revert s
    decide +kernel

/-- A SETDOWN_BUTTON line that goes active in a state that admits no SET DOWN, and in one that does. -/
theorem witness_SetdownButton_states :
    ¬ stateAdmits (elapse 20 (lineOn 4 10000 (station craneSection .halt))).station.state 16 ∧
      stateAdmits (elapse 20 (lineOn 4 10000 crane)).station.state 16 :=
  ⟨by show ¬ ((16 : Nat) = 19 ∨ (16 : Nat) = 26); decide, trivial⟩

/-! ### Witnesses: pumping -/

def limited : State := tank.setPump { Pump.cleared with auto := true, manualDemand := .sp, sp := .active }

/-- A QUIET station with a demand in force, and the tank masses of a SHARE sent. -/
def quietTank : State :=
  ((station tankSection .quiet).setPump { Pump.cleared with manualDemand := .ps, suspended := true }).setLink
    { tank.link with shareRef := some ⟨none, [2000, 1950]⟩ }

theorem witness_LevelsRecordIsHeld :
    (∀ s ∈ [tank, limited], working (elapse 0 s) = true ∧ takesInputs (elapse 0 s) = true ∧ (elapse 0 s).role = .tank ∧
      levelsOf (elapse 0 s).ownTanks.length (encodeLevels [9500, 500]) = some [9500, 500] ∧
      levelsOf (elapse 0 s).ownTanks.length (encodeLevels [-100000, 1000000]) = some [-100000, 1000000]) ∧
    (let w := (elapse 0 limited).setPump { limited.pump with levels := some [9500, 500], suspended := false };
      levelLimit w (effectiveDemand w.pump) = true ∧ tanksHeld w ≠ tanksHeld (elapse 0 limited)) ∧
    (let w := (elapse 0 tank).setPump { tank.pump with levels := some [9499, 501], suspended := false };
      levelLimit w (effectiveDemand w.pump) = false) ∧
    (let w := (elapse 0 quietTank).setPump { quietTank.pump with levels := some [5001, 5000], suspended := false };
      working w = true ∧ quietTank.station.state = .quiet ∧ quietTank.link.shareRef = some ⟨none, [2000, 1950]⟩ ∧
        (tanksHeld w).map (·.mass) = [2000, 2000] ∧ w.pumpData.tankThreshold = 50 ∧
        ¬ w.pumpData.tankThreshold < (2000 - 1950 : Int).natAbs ∧ w.pumpData.tankThreshold < (2000 - 1949 : Int).natAbs ∧
        levelLimit w (effectiveDemand w.pump) = false ∧
        (outputsFor w.now (deadInterval w) w.pump).ps = .active) ∧
    (quietTank.claim.state = .none ∧ (outputsFor (elapse 0 quietTank).now 3000 waiting).ps = .waiting) := by
  decide +kernel

def freshTank (levels : List Int) : State :=
  (portOf .fresh (some 10000) tank).setPump { Pump.cleared with levels := some levels, suspended := false }

/-- The tank station aboard a ship that heels by `my`, in automatic mode with a demand, while a pass stands. -/
def tankAfloat (my : Int) (d : Demand) : State :=
  passing (withPeers [heavy6 45000 my 8600 1300000000] ((freshTank [5000, 5000]).setPump
    { (freshTank [5000, 5000]).pump with auto := true, autoDemand := d }))

theorem witness_PumpDemandsAndOutputs :
    (admits 24 crane ∧ (taken crane).role ≠ .tank ∧ admits 24 tank ∧ (taken tank).role = .tank ∧
      (taken tank).sensor.port = .lost ∧ admits 25 crane) ∧
    (admits 24 (freshTank [9500, 501]) ∧ (taken (freshTank [9500, 501])).sensor.port ≠ .lost ∧
      levelLimit (taken (freshTank [9500, 501])) .sp = true ∧ levelLimit (taken (freshTank [9499, 501])) .sp = false) ∧
    (admits 25 tank ∧ (taken tank).pump.auto = false ∧ (taken limited).pump.auto = true ∧ admits 25 limited) ∧
    (∀ s ∈ [tankAfloat 3000000 .none, tankAfloat 0 .sp, tankAfloat (-3000000) .sp, tankAfloat 1000000 .sp],
      let u := elapse 0 s;
      working u = true ∧ u.role = .tank ∧ u.solver.pass.isSome = true ∧ 0 < u.pumpData.startBand ∧
        (u.station.state = .run ∨ u.station.state = .quiet) ∧ u.pump.auto = true ∧ u.pump.suspended = false) ∧
    ([3000000, 1000000, 0, -3000000].map (fun my => heelFound (tankAfloat my .none)) =
        [some 65, some 22, some 0, some (-65)] ∧ (tankAfloat 0 .none).pumpData.startBand = 20 ∧
      (tankAfloat 0 .none).pumpData.stopBand = 5 ∧
      (tankLevel (tankAfloat 0 .none) 2).map (fun q => (q.1.minLevel, q.2, q.1.maxLevel)) = some (500, 5000, 9500) ∧
      (tankLevel (tankAfloat 0 .none) 3).map (·.2) = some 5000) ∧
    (let u := fun dt => elapse dt (tank.setPump { Pump.cleared with manualDemand := .ps, ps := .waiting, offSp := 7001 });
      working (u 0) = true ∧ (u 0).role = .tank ∧ (u 0).pump.ps = .waiting ∧ (u 0).pump.sp = .inactive ∧
        effectiveDemand (u 0).pump = .ps ∧ (u 0).now < (u 0).pump.offSp + deadInterval (u 0) ∧
        (u 1).pump.offSp + deadInterval (u 1) ≤ (u 1).now) ∧
    (waitingSp.pump.sp = .waiting ∧ waitingSp.pump.ps = .inactive ∧ effectiveDemand waitingSp.pump = .sp ∧
      waitingSp.pump.offPs + deadInterval waitingSp ≤ waitingSp.now) ∧
    (effectiveDemand Pump.cleared = .none ∧ effectiveDemand waitingPs.pump = .ps ∧ waitingPs.pump.ps ≠ .active ∧
      limited.pump.sp = .active) := by decide +kernel

/-- A TANK station in a state, with an output whose dead interval runs out now and a filter that runs. -/
def dueNow (st : StationState) (p : Pump) : State :=
  ((station tankSection st).setPump p).setStation { (station tankSection st).station with quietStart := some 8000 }

/-- The moment a dead interval ran out, for each output and in each state that pumps, and a record that stops it. -/
theorem witness_PumpDemandsAndOutputs_moment : ∀ st ∈ [StationState.listen, .run, .quiet],
    ∀ q ∈ [({ waiting with offSp := 7000 }, [500, 5000], Demand.ps),
      ({ waiting with autoDemand := .sp, ps := .inactive, sp := .waiting, offPs := 7000, offSp := 0 }, [5000, 500], .sp)],
    let u := elapse 0 (dueNow st q.1)
    let w := u.setPump { u.pump with
      levels := some ((u.ownTanks.zip q.2.1).map (fun k => clamp 0 k.1.2.height k.2)) }
    working u = true ∧ takesInputs u = true ∧ u.role = .tank ∧ u.claim.state = .none ∧ u.station.quietStart ≠ none ∧
      levelsOf u.ownTanks.length (encodeLevels q.2.1) = some q.2.1 ∧ effectiveDemand u.pump = q.2.2 ∧
      levelLimit w q.2.2 = true ∧ (7000 : Nat) + deadInterval u = u.now ∧
      (after (.deadIntervalExpiry 0) u id).map (fun v => (v.pump.ps, v.pump.sp)) =
        some (if q.2.2 = .ps then (.active, .inactive) else (.inactive, .active)) := by
  decide +kernel

/-! ### Witnesses: the peer view -/

def roll (start request : Bool) (period : Int) (id : Word32) : FrameBody :=
  .rollcall ⟨.crane, id, .powerOn, start, request, period, 2500, ⟨1, 2, 3⟩⟩

def shareBody (c : Option ClaimRecord) : ShareBody := ⟨true, true, false, zeroSum [60000], zeroSum [60000], some ⟨60, ⟨1, 2, 3⟩⟩, c⟩

def sending (t : Option Transmission) (q : List Fixed) (p : Bool) : State :=
  crane.setLink { crane.link with tx := t, queue := q, placeholder := p }

/-- Fourteen entries, of stations 1 to 15 but 4. -/
def fourteen : List PeerEntry :=
  ((List.range 15).filter (fun n => decide (n ≠ 3))).map (fun n => { peer6 with station := n + 1 })

theorem witness_RollcallAndShareSetEntries :
    (∀ p ∈ [100, 2000], (100 : Int) ≤ p ∧ p ≤ 2000 ∧ p % 100 = 0 ∧
      frameTaken ⟨6, roll true true p 9#32⟩ (bytesOf 6 (roll true true p 9#32)) (elapse 0 (withPeers [peer6] crane))) ∧
    (findEntry 6 (elapse 0 (withPeers [peer6] crane)).view.entries = some peer6 ∧ peer6.identity ≠ .mismatch ∧
      findEntry 6 (elapse 0 crane).view.entries = none ∧ (elapse 0 crane).view.entries.length < 14 ∧
      (elapse 0 crane).table.identity = some 7#32 ∧ (elapse 0 .reset).table.identity = none) ∧
    (∀ p ∈ [99, 2001, 150], (p < 100 ∨ 2000 < p ∨ p % 100 ≠ 0) ∧
      frameTaken ⟨6, roll false false p 7#32⟩ (bytesOf 6 (roll false false p 7#32)) (elapse 0 crane)) ∧
    (let c : ClaimRecord := { record12 (some .committed) with station := 6 };
      frameTaken ⟨6, .share (shareBody (some c))⟩ (bytesOf 6 (.share (shareBody (some c)))) (elapse 0 crane) ∧
        frameTaken ⟨6, .share (shareBody none)⟩ (bytesOf 6 (.share (shareBody none)))
          (elapse 0 (station craneSection .fault))) ∧
    (working (elapse 0 (station craneSection .fault)) = false ∧ working (elapse 0 crane) = true ∧
      (elapse 0 crane).link.queue.any isRollcall = false ∧ (elapse 0 crane).link.queue.length < 32 ∧
      ((crane.setLink { crane.link with queue := [.rollcall false] }).link.queue.any isRollcall) = true) ∧
    (let s := withPeers ((fourteen.filter (fun e => decide (e.station ≠ 6))) ++ [{ peer6 with station := 4 }]) crane;
      findEntry 6 s.view.entries = none ∧ 14 ≤ s.view.entries.length) ∧ fourteen.length = 14 ∧
    (let s := withPeers ((fourteen.filter (fun e => decide (e.station ≠ 6))) ++ [{ peer6 with station := 4 }]) crane;
      frameTaken ⟨6, roll false true 500 7#32⟩ (bytesOf 6 (roll false true 500 7#32)) (elapse 0 s) ∧
        findEntry 6 (elapse 0 s).view.entries = none ∧ 14 ≤ (elapse 0 s).view.entries.length) ∧
    ((elapse 0 (sending none (List.replicate 32 (.yield 1)) false)).link.queue.any isRollcall = false ∧
      32 ≤ (elapse 0 (sending none (List.replicate 32 (.yield 1)) false)).link.queue.length) ∧
    (peer6.roll.map (·.period) = some 500 ∧ frameTaken ⟨6, roll false false 500 7#32⟩ (bytesOf 6 (roll false false 500 7#32))
      (elapse 0 (withPeers [peer6] crane)) ∧ ¬ ((some roll0).map (·.period) = some 400) ∧
      ¬ (∃ i ∈ peer6.share, i.quiet = true) ∧ ∃ i ∈ ({ peer6 with share := some { share0 with quiet := true } }).share,
        i.quiet = true) := by decide +kernel

def claim6 : ClaimRecord := { record12 (some .announced) with station := 6 }
def holding6 : State := withPeers [{ peer6 with claim := some claim6 }] crane
def done6 (cls : Option Nat) (n : Nat) : DoneBody := ⟨n, .discharged, 7, 1, 5, 1, cls, none⟩

theorem witness_ClaimYieldAndDoneFrames :
    (findEntry 6 (elapse 0 (withPeers [peer6] crane)).view.entries = some peer6 ∧
      findEntry 6 (elapse 0 holding6).view.entries = some { peer6 with claim := some claim6 } ∧ peer6.claim = none) ∧
    frameTaken ⟨6, .claim claim6⟩ (bytesOf 6 (.claim claim6)) (elapse 0 holding6) ∧
    (∀ n ∈ [0, 12, 255], frameTaken ⟨6, .yield n⟩ (bytesOf 6 (.yield n)) (elapse 0 holding6)) ∧
    (∀ q ∈ [(some 3, 12), (some 1, 0), (none, 11)],
      frameTaken ⟨6, .done (done6 q.1 q.2)⟩ (bytesOf 6 (.done (done6 q.1 q.2))) (elapse 0 holding6)) ∧
    working (elapse 0 holding6) = true ∧ (claim6.number = 12 ∧ claim6.number ≠ 0 ∧ claim6.number ≠ 11) ∧
    ((∃ f ∈ (elapse 0 crane).sec.filter, f ≠ ⟨0, 0⟩ ∧ (f.station = 0 ∨ f.station = (6 : Nat)) ∧ (f.cls = 0 ∨ f.cls = (3 : Nat))) ∧
      (∀ f ∈ (elapse 0 tank).sec.filter, f = ⟨0, 0⟩)) ∧
    (journalRoom (elapse 0 crane) = true ∧ journalRoom (elapse 0 full) = false) ∧
    (findEntry 6 (elapse 0 crane).view.entries = none ∧ frameTaken ⟨6, .claim claim6⟩ (bytesOf 6 (.claim claim6)) (elapse 0 crane) ∧
      frameTaken ⟨6, .done (done6 none 12)⟩ (bytesOf 6 (.done (done6 none 12))) (elapse 0 crane)) ∧
    (let u := elapse 0 (withPeers [{ peer6 with claim := some claim6 }] (station craneSection .fault));
      working u = false ∧ findEntry 6 u.view.entries = some { peer6 with claim := some claim6 } ∧
        frameTaken ⟨6, .done (done6 none 12)⟩ (bytesOf 6 (.done (done6 none 12))) u ∧
        frameTaken ⟨6, .done (done6 none 11)⟩ (bytesOf 6 (.done (done6 none 11))) u) := by decide +kernel

theorem witness_FailedAndForeignFrames :
    receiving (elapse 0 crane) = true ∧ receiving (elapse 0 (station craneSection .fault)) = true ∧
      frameOf [4, 6, 0, 1, 3, 0, 0] = none ∧ cutShort [4] = true ∧ cutShort [4, 6, 0, 1, 3, 0] = true ∧
      frameOf (bytesOf 4 (.yield 3)) = some ⟨4, .yield 3⟩ ∧ (elapse 0 crane).ownNumber = some 4 ∧
      (elapse 0 probing).claim.state ≠ .none ∧ (elapse 0 probing).panel.inProgress = some ⟨14, 5⟩ := by decide +kernel

/-- A quiet peer, whose times are 12 and 40 periods. -/
def quiet6 : PeerEntry := { peer6 with share := some { share0 with quiet := true }, roll := none }

/-- The crane on an even keel, by a pass published, with a heel its inclinometer measures. -/
def measuring (heel : Int) : State :=
  match exec (.publish 0) (craneAfloat 0 6000) with
  | .next t => t.setCrane { t.crane with heel := some heel }
  | _ => crane

theorem witness_ViewTimers :
    viewing (elapse 0 crane) = true ∧ viewing (elapse 0 (station craneSection .fault)) = true ∧
      findEntry 6 (elapse 0 (withPeers [peer6] crane)).view.entries = some peer6 ∧
      ((elapse 499 crane).now < 9000 + 500 * 3 ∧ 9000 + 500 * 3 ≤ (elapse 500 crane).now) ∧
      ((elapse 3999 crane).now < 9000 + 500 * 10 ∧ 9000 + 500 * 10 ≤ (elapse 4000 crane).now) ∧
      (findEntry 6 (elapse 0 (withPeers [quiet6] crane)).view.entries = some quiet6 ∧
        (∃ i, quiet6.share = some i ∧ i.quiet = true) ∧ 9000 + (elapse 0 crane).period * 12 ≤ (elapse 5000 crane).now ∧
        9000 + (elapse 0 crane).period * 40 ≤ (elapse 19000 crane).now) ∧
      (peer6.state = .fresh ∧ peer6.state ≠ .lost ∧ { peer6 with state := .stale }.state ≠ .lost) ∧
      (let u := elapse 4999 (crane.setView { View.cleared with windowOpen := true, failureAt := some 10000 });
        u.view.windowOpen = true ∧ u.view.failureAt = some 10000 ∧ u.now < 10000 + 10 * u.period ∧
          10000 + 10 * u.period ≤ (elapse 1 u).now) ∧
      (let u := elapse 9999 (crane.setView { View.cleared with heelFilter := some 10000 });
        u.inclinometer = true ∧ working u = true ∧ u.view.heelFilter = some 10000 ∧ u.now < 10000 + 10000 ∧
          10000 + 10000 ≤ (elapse 1 u).now ∧ u.view.agreement = true) ∧
      (let w := measuring 20;
        w.inclinometer = true ∧ working w = true ∧ w.solver.actual.body.bind (fun b => b.solved.bind (·.heel)) = some 0 ∧
          w.crane.heel = some 20 ∧ w.craneData.heelTolerance = some 20 ∧ ¬ (20 : Int) < (20 - 0 : Int).natAbs ∧
          (20 : Int) < (21 - 0 : Int).natAbs) ∧ crane.crane.heel = none ∧ tank.inclinometer = false := by
  refine ⟨by decide +kernel, by decide +kernel, by decide +kernel, by decide +kernel, by decide +kernel,
    ⟨by decide +kernel, ⟨_, rfl, rfl⟩, by decide +kernel⟩, ?_⟩
  decide +kernel

/-! ### Witnesses: sending on the deck link -/

def yield3 : Frame := ⟨4, .yield 3⟩

theorem witness_TransmitAttempts :
    (∀ s ∈ [sending none [.rollcall true] true, sending none [] true, sending (some ⟨yield3, 15, .sending⟩) [] false],
      working (elapse 0 s) = true ∧ takesInputs (elapse 0 s) = true) ∧
    ((sending none [.rollcall true] true).link.tx = none ∧ (sending none [.rollcall true] true).link.queue = [.rollcall true] ∧
      (sending none [] true).link.queue = [] ∧ (sending none [] true).link.placeholder = true ∧
      (sending none [] true).link.spacing = false) ∧
    (let s := (sending none [] true).setLink { (sending none [] true).link with spacing := true, shareStart := some 10000 };
      s.link.spacing = true ∧ s.link.shareStart = some 10000 ∧ (elapse 49 s).now < 10000 + 50 ∧
        10000 + 50 ≤ (elapse 50 s).now) ∧
    ((sending none [] false).link.tx = none ∧ (sending none [] false).link.queue = [] ∧
      (sending none [] false).link.placeholder = false) ∧
    ((withClaim (claimIn .announced) crane).claim.state = .announced ∧ (sending none [] true).claim.state = .none ∧
      (sending none [] true).role ≠ .tank ∧ tank.role = .tank) ∧
    ((sending (some ⟨yield3, 1, .ready⟩) [] false).link.tx = some ⟨yield3, 1, .ready⟩ ∧
      (sending (some ⟨yield3, 15, .sending⟩) [] false).link.tx = some ⟨yield3, 15, .sending⟩ ∧ 15 < 16 ∧ 16 ≤ 16 ∧
      (sending (some ⟨yield3, 1, .backoff 10004⟩) [] false).link.tx = some ⟨yield3, 1, .backoff 10004⟩ ∧
      (elapse 3 crane).now < 10004 ∧ 10004 ≤ (elapse 4 crane).now) := by decide +kernel

/-- An item without a class, then one with, the rotation behind them both. -/
def turning : State :=
  withItems [{ unit7 with number := 1, cls := none }, unit7] (crane.setLink { crane.link with rotation := some ⟨1, false⟩ })

theorem witness_TransmitSchedule :
    working (elapse 0 crane) = true ∧
      (crane.link.shareStart = some 9900 ∧ (elapse 399 crane).now < 9900 + (elapse 399 crane).period ∧
        9900 + (elapse 400 crane).period ≤ (elapse 400 crane).now ∧
        9900 + 4 * (elapse 0 (station craneSection .quiet)).period ≤ (elapse 1900 (station craneSection .quiet)).now) ∧
      (let s := crane.setLink { crane.link with spacing := true, shareStart := some 10000, answerAt := some 10080 };
        s.link.spacing = true ∧ (elapse 49 s).now < 10000 + 50 ∧ 10000 + 50 ≤ (elapse 50 s).now ∧
          s.link.answerAt = some 10080 ∧ (elapse 79 s).now < 10080 ∧ 10080 ≤ (elapse 80 s).now ∧
          s.link.queue.any isRollcall = false ∧ s.link.queue.length < 32) ∧
      (sending none [.rollcall true] false).link.queue.any isRollcall = true ∧
      (let s := sending none (List.replicate 32 (.yield 1)) false;
        s.link.queue.any isRollcall = false ∧ 32 ≤ s.link.queue.length) ∧
      (crane.link.rotationAt = some 9500 ∧ 9500 + (elapse 0 crane).period ≤ (elapse 0 crane).now ∧
        (sending none [.yield 3] false).link.queue ≠ [] ∧ crane.link.queue = [] ∧
        (∀ i ∈ (withItems [{ unit7 with cls := none }] crane).stowage.items, i.cls = none)) ∧
      (turning.stowage.items[1]? = some unit7 ∧ unit7.cls = some 3 ∧
        ∀ m j, turnBefore (rotationFrom turning.link.rotation) m 1 → turning.stowage.items[m]? = some j → j.cls = none) := by
  refine ⟨by decide +kernel, by decide +kernel, by decide +kernel, by decide +kernel, by decide +kernel,
    by decide +kernel, rfl, rfl, ?_⟩
  intro m j h e
  have h0 : m = 0 := by
    change (2 ≤ m ∧ (m < 1 ∨ 1 < 2)) ∨ (m < 1 ∧ 1 < 2) at h
    rcases h with ⟨h, -⟩ | h
    · have : turning.stowage.items[m]? = none := List.getElem?_eq_none h
      rw [this] at e
      cases e
    · omega
  subst h0
  cases e
  rfl

/-! ### Witnesses: the condition solver and encodings -/

theorem witness_PassAndPublish :
    working (elapse 0 crane) = true ∧ (elapse 0 crane).solver.pass = none ∧
      (crane.setSolver { crane.solver with dirty := true }).solver.dirty = true ∧
      (crane.solver.lastStart = some 9900 ∧ 9900 + 250 ≤ (elapse 150 crane).now ∧ (elapse 149 crane).now < 9900 + 250) ∧
      (let s := crane.setSolver { crane.solver with pass := some (snapshotOf crane), passNumber := 4294967295 };
        s.solver.pass = some (snapshotOf crane) ∧ 4294967295 ≤ s.solver.passNumber ∧ (elapse 149 s).now < 9900 + 250 ∧
          s.solver.lastStart = some 9900 ∧ 9900 + 250 ≤ (elapse 150 s).now ∧ s.role = .crane) := by decide +kernel

theorem witness_QuotientsRoundAndRowsAreSelected :
    ((2 : Int) ≠ 0 ∧ 2 * (33 - 2 * 16 : Int).natAbs = (2 : Int).natAbs ∧
      2 * (-33 - 2 * (-17) : Int).natAbs = (2 : Int).natAbs) ∧
    2 ≤ ship.rows.length ∧ (ship.rows.map (·.d)).Pairwise (· < ·) ∧ ship.rows.head?.map (·.d) = some 90000 ∧
      ship.rows.getLast?.map (·.d) = some 91800 ∧ ((89999 : Int) < 90000 ∧ (91800 : Int) < 91801) ∧
      ship.rows[0]?.map (·.d) = some 90000 ∧ ship.rows[0 + 1]?.map (·.d) = some 91800 ∧
      ((90000 : Int) ≤ 90000 ∧ (91799 : Int) < 91800) := by decide +kernel

def pass0 : PassInput := passInput (snapshotOf crane) crane

/-- A ship of 90,000 dt, and one of 91,800 dt at the edge of the table. -/
def loaded (m : Int) : Aggregate := ⟨m, m * 61000, m * 10, m * 8000, m * 100, [⟨45000, 1000000000⟩]⟩

/-- The items and claims that the terms of a solution are drawn from, in each state. -/
theorem witness_SumsOfTheSolutions :
    (stowed7.state = .stowed ∧ plannedOut7.state = .plannedOut ∧ plannedOut7.stowed = some ⟨61500, 2000, 3500⟩) ∧
    (aboard7.state = .landed ∧ aboard7.landing = some ⟨⟨61500, 2000, 3500⟩, true⟩ ∧
      (ashore7 .outbound).landing = some ⟨⟨62000, 19400, 9000⟩, false⟩) ∧
    (unit7.state = .plannedIn ∧ slung7.state = .slung ∧ unresolved7.state = .unresolved ∧
      stowed7.state ≠ .plannedOut ∧ stowed7.state ≠ .plannedIn) ∧
    (findItem 7 [unit7] = some unit7 ∧ topMove 7 [moveEntry false] = some (⟨60000, 0, 2000⟩, 1) ∧ topMove 7 [] = none) := by
  decide +kernel

theorem witness_StagesComputeTheValues :
    (∀ m ∈ [90000, 91800], (selectRows pass0.image.rows (loaded m).mass).isSome = true ∧
      (solveSum pass0 ⟨limitsInForce pass0.image.particulars true false, true, []⟩ (loaded m)).map (fun v => decide (0 < v.gm)) =
        some true) ∧
    (solveSum pass0 ⟨limitsInForce pass0.image.particulars true false, true, []⟩
      { loaded 90000 with mz := 90000 * 8900 - 9000000 }).map (·.gm) = some 0 ∧
    ((loaded 90000).aft.length = pass0.image.sections.length ∧
      ((loaded 90000).aft[0]? = some ⟨45000, 1000000000⟩ ∧ 0 < pass0.image.sections.length)) := by decide +kernel

theorem witness_ChecksJudgeAgainstLimits :
    let u : Limit := ⟨100, 10⟩
    let l : Limit := ⟨-100, 0⟩
    (0 ≤ u.band ∧ 0 ≤ l.band) ∧
      (∀ v ∈ [(90 : Int), -100], v ≤ u.limit - u.band ∧ l.limit + l.band ≤ v) ∧
      (u.limit - u.band < 91 ∧ (100 : Int) ≤ u.limit ∧ u.limit < 101 ∧ (-101 : Int) < l.limit) := by decide

/-- The verdicts of the records of a pass: VOID outside the table, RED, GREEN, and AMBER with strength checks not judged. -/
theorem witness_RecordsCheckTheirSolutions :
    let verdictAt := fun (p : PassInput) => (actualRecord p 1).verdict
    let afloat := fun z => passInput (snapshotOf (craneAfloat 0 z)) (craneAfloat 0 z)
    let clean := fun (p : PassInput) => { p with snap := { p.snap with clean := true } }
    let unmatched := fun (p : PassInput) =>
      { p with snap := { p.snap with peers := p.snap.peers.map (fun e => { e with identity := .unknown }) } }
    (1 ≤ (actualSum pass0).mass ∧ selectRows pass0.image.rows (actualSum pass0).mass = none ∧ verdictAt pass0 = .void) ∧
    ((actualSum (afloat 6000)).mass = 90500 ∧ (selectRows (afloat 6000).image.rows 90500).isSome = true) ∧
    (verdictAt (afloat 8600) = .red ∧ verdictAt (clean (afloat 6000)) = .green ∧
      verdictAt (unmatched (clean (afloat 6000))) = .amber) ∧
    (pass0.snap.claimState ≠ .probing ∧ (snapshotOf (withClaim (claimIn .probing) crane)).claimState = .probing) := by
  decide +kernel

theorem witness_FramesAndSensorRecordsRoundTrip :
    (∀ b ∈ [roll true true (-32768) 9#32, .share (shareBody (some claim6)), .claim { claim6 with number := 255, a1 := 1023 },
      .yield 0, .yield 255, .done { done6 (some 9) 255 with label := 65535 }, .tag ⟨0, 255, false, -2147483648, 2147483647, 0⟩],
      frameFits ⟨6, b⟩ = true) ∧
    (frameFits ⟨1, .yield 0⟩ = true ∧ frameFits ⟨15, .yield 0⟩ = true) ∧
    (hookFits ⟨-100000, 65535, 0, 1000000, some 32767⟩ = true ∧ hookFits ⟨1000000, 0, 1000000, -100000, none⟩ = true) ∧
    (∀ ls ∈ [[-100000], [1000000, 1, 2, 3, 4, 5, 6, 7]], 1 ≤ ls.length ∧ ls.length ≤ 8 ∧
      ∀ v ∈ ls, (-100000 : Int) ≤ v ∧ v ≤ 1000000) := by decide +kernel

end Sys2Proof.Tests
end

