-- ==== Sys2Proof/Proofs/RoundingAndRows.lean ====
section
/-! PROOF. What a rounded quotient is (R1) and which pair of rows the table range stage selects (R70, R81). -/

namespace Sys2Proof.Machine

/-! ### The rounded quotient (R1) -/

/-- A quotient is rounded by its magnitude and takes the sign of the exact quotient; at `n = 0` the rounded magnitude
is 0 as the sign is. -/
theorem roundDiv_eq_sign_mul {d : Int} (n : Int) (hd : d ≠ 0) :
    roundDiv n d = (n * d).sign * ((2 * n.natAbs + d.natAbs) / (2 * d.natAbs) : Nat) := by
  unfold roundDiv
  rcases Int.lt_trichotomy (n * d) 0 with hneg | hzero | hpos
  · rw [Int.sign_eq_neg_one_of_neg hneg, if_pos hneg, Int.neg_one_mul]
  · obtain rfl : n = 0 := (Int.mul_eq_zero.mp hzero).resolve_right hd
    have hmag : (2 * (0 : Int).natAbs + d.natAbs) / (2 * d.natAbs) = 0 := Nat.div_eq_of_lt (by omega)
    rw [hmag, hzero, if_neg (Int.lt_irrefl 0)]
    rfl
  · rw [Int.sign_eq_one_of_pos hpos, if_neg (Int.lt_asymm hpos), Int.one_mul]

theorem natAbs_roundDiv (n d : Int) :
    (roundDiv n d).natAbs = (2 * n.natAbs + d.natAbs) / (2 * d.natAbs) := by
  unfold roundDiv
  split
  · exact (Int.natAbs_neg _).trans (Int.natAbs_natCast _)
  · exact Int.natAbs_natCast _

/-- What a rounded quotient leaves over is what its magnitude leaves over, under the sign of the dividend. -/
theorem sub_mul_roundDiv {d : Int} (n : Int) (hd : d ≠ 0) :
    n - d * roundDiv n d = n.sign * (n.natAbs - d.natAbs * (roundDiv n d).natAbs) := by
  rw [natAbs_roundDiv n d, roundDiv_eq_sign_mul n hd, Int.sign_mul]
  generalize (2 * n.natAbs + d.natAbs) / (2 * d.natAbs) = k
  calc n - d * (n.sign * d.sign * k) = n.sign * n.natAbs - n.sign * (d * d.sign * k) := by
        rw [Int.sign_mul_natAbs]
        ac_rfl
    _ = n.sign * (n.natAbs - d.natAbs * k) := by rw [Int.mul_sign_self, Int.mul_sub]

theorem natAbs_sub_natAbs_mul_half_le {d : Int} (n : Int) (hd : d ≠ 0) :
    2 * ((n.natAbs : Int) - d.natAbs * (roundDiv n d).natAbs).natAbs ≤ d.natAbs := by
  have hdiv := Nat.div_add_mod (2 * n.natAbs + d.natAbs) (2 * d.natAbs)
  have hmod := Nat.mod_lt (2 * n.natAbs + d.natAbs) (show 0 < 2 * d.natAbs by omega)
  rw [← natAbs_roundDiv n d, Nat.mul_assoc] at hdiv
  rw [← Int.natCast_mul]
  omega

/-- No integer is nearer to the quotient than the rounded one. -/
theorem roundDiv_nearest {d : Int} (n : Int) (hd : d ≠ 0) :
    2 * (n - d * roundDiv n d).natAbs ≤ d.natAbs := by
  have hsign : n.sign.natAbs ≤ 1 := by rcases Int.sign_trichotomy n with h | h | h <;> rw [h] <;> decide
  rw [sub_mul_roundDiv n hd, Int.natAbs_mul]
  generalize hrest : ((n.natAbs : Int) - d.natAbs * (roundDiv n d).natAbs).natAbs = r
  calc 2 * (n.sign.natAbs * r) ≤ 2 * (1 * r) := Nat.mul_le_mul_left 2 (Nat.mul_le_mul_right r hsign)
    _ = 2 * r := by rw [Nat.one_mul]
    _ ≤ d.natAbs := hrest ▸ natAbs_sub_natAbs_mul_half_le n hd

/-- Of two integers as near to the quotient the rounded one is the one farther from zero: `|d| * |q|` is at most
`|n|` and half of `|d|`. -/
theorem natAbs_le_natAbs_roundDiv {n d q : Int} (hd : d ≠ 0) (hhalf : 2 * (n - d * q).natAbs = d.natAbs) :
    q.natAbs ≤ (roundDiv n d).natAbs := by
  rw [natAbs_roundDiv n d, Nat.le_div_iff_mul_le (by omega)]
  have hprod : (d * q).natAbs = d.natAbs * q.natAbs := Int.natAbs_mul d q
  have hmag : (d * q).natAbs ≤ n.natAbs + (n - d * q).natAbs := by omega
  calc q.natAbs * (2 * d.natAbs) = 2 * (d * q).natAbs := by rw [hprod]; ac_rfl
    _ ≤ 2 * n.natAbs + d.natAbs := by omega

/-! ### The rows of a displacement (R70) -/

theorem selectFrom_cons_cons (n : Nat) (delta : Int) (a b : HullRow) (rest : List HullRow) :
    selectFrom n delta (a :: b :: rest) =
      (selectFrom (n + 1) delta (b :: rest)).or (if a.d ≤ delta then some (n, a, b) else none) := by
  rw [selectFrom]
  cases selectFrom (n + 1) delta (b :: rest) <;> rfl

/-- No row is found where every row but the last lies above the displacement. -/
theorem selectFrom_eq_none {delta : Int} {rows : List HullRow} (n : Nat)
    (habove : ∀ j c, rows[j]? = some c → j + 1 < rows.length → delta < c.d) : selectFrom n delta rows = none := by
  induction rows generalizing n with
  | nil => rfl
  | cons a rest ih =>
    cases rest with
    | nil => rfl
    | cons b rest =>
      have ha : ¬ a.d ≤ delta := Int.not_le.mpr (habove 0 a rfl (Nat.succ_lt_succ (Nat.succ_pos _)))
      have htail := ih (n + 1) (fun j c hc hj => habove (j + 1) c hc (Nat.succ_lt_succ hj))
      rw [selectFrom_cons_cons, htail, if_neg ha, Option.none_or]

/-- The pair found is the last one whose lower row does not exceed the displacement. -/
theorem selectFrom_eq_some {delta : Int} {rows : List HullRow} {i : Nat} {a b : HullRow} (n : Nat)
    (ha : rows[i]? = some a) (hb : rows[i + 1]? = some b) (hle : a.d ≤ delta)
    (habove : ∀ j c, i < j → rows[j]? = some c → j + 1 < rows.length → delta < c.d) :
    selectFrom n delta rows = some (n + i, a, b) := by
  induction rows generalizing n i with
  | nil => cases ha
  | cons x rest ih =>
    cases rest with
    | nil => cases hb
    | cons y rest =>
      rw [selectFrom_cons_cons]
      cases i with
      | zero =>
        have htail := selectFrom_eq_none (n + 1) (rows := y :: rest) (delta := delta)
          (fun j c hc hj => habove (j + 1) c (by omega) hc (Nat.succ_lt_succ hj))
        obtain rfl : x = a := Option.some.inj ha
        obtain rfl : y = b := Option.some.inj hb
        rw [htail, if_pos hle, Option.none_or, Nat.add_zero]
      | succ i =>
        have htail := ih (n + 1) ha hb
          (fun j c hij hc hj => habove (j + 1) c (by omega) hc (Nat.succ_lt_succ hj))
        rw [htail, Option.some_or, Nat.add_assoc, Nat.add_comm 1 i]

theorem lastD_of_getLast? {rows : List HullRow} {l : HullRow} (hl : rows.getLast? = some l) : lastD rows = l.d := by
  rw [lastD, hl, Option.map_some, Option.getD_some]

theorem selectRows_of_le {rows : List HullRow} {l : HullRow} {delta : Int} (hl : rows.getLast? = some l)
    (hle : delta ≤ l.d) : selectRows rows delta = selectFrom 0 delta rows := by
  rw [selectRows, lastD_of_getLast? hl, if_pos hle]

/-- A displacement above the last row's lies out of the table. -/
theorem selectRows_of_last_lt {rows : List HullRow} {l : HullRow} {delta : Int} (hl : rows.getLast? = some l)
    (hlt : l.d < delta) : selectRows rows delta = none := by
  rw [selectRows, lastD_of_getLast? hl, if_neg (Int.not_le.mpr hlt)]

section Ascending

variable {rows : List HullRow} (hrows : (rows.map (·.d)).Pairwise (· < ·))
include hrows

theorem d_lt_of_lt {i j : Nat} {a b : HullRow} (hij : i < j) (ha : rows[i]? = some a) (hb : rows[j]? = some b) :
    a.d < b.d := by
  obtain ⟨hi, rfl⟩ := List.getElem?_eq_some_iff.mp ha
  obtain ⟨hj, rfl⟩ := List.getElem?_eq_some_iff.mp hb
  exact List.pairwise_iff_getElem.mp (List.pairwise_map.mp hrows) i j hi hj hij

theorem d_le_of_le {i j : Nat} {a b : HullRow} (hij : i ≤ j) (ha : rows[i]? = some a) (hb : rows[j]? = some b) :
    a.d ≤ b.d := by
  rcases Nat.eq_or_lt_of_le hij with rfl | hlt
  · obtain rfl : a = b := Option.some.inj (ha.symm.trans hb)
    exact Int.le_refl _
  · exact Int.le_of_lt (d_lt_of_lt hrows hlt ha hb)

/-- A displacement below the first row's lies out of the table. -/
theorem selectRows_of_lt_first {f : HullRow} {delta : Int} (hf : rows.head? = some f) (hlt : delta < f.d) :
    selectRows rows delta = none := by
  have hnone : selectFrom 0 delta rows = none := selectFrom_eq_none 0 fun j c hc _ =>
    Int.lt_of_lt_of_le hlt (d_le_of_le hrows (Nat.zero_le j) (List.head?_eq_getElem? ▸ hf) hc)
  rw [selectRows, hnone, ite_self]

/-- A displacement from a row's own up to the next row's gives that pair. -/
theorem selectRows_of_between {i : Nat} {a b : HullRow} {delta : Int} (ha : rows[i]? = some a)
    (hb : rows[i + 1]? = some b) (hle : a.d ≤ delta) (hlt : delta < b.d) :
    selectRows rows delta = some (i, a, b) := by
  obtain ⟨hi, -⟩ := List.getElem?_eq_some_iff.mp hb
  obtain ⟨l, hl⟩ : ∃ l, rows.getLast? = some l :=
    ⟨_, List.getLast?_eq_some_getLast (List.ne_nil_of_length_pos (by omega))⟩
  have hbl : b.d ≤ l.d := d_le_of_le hrows (by omega) hb (List.getLast?_eq_getElem? ▸ hl)
  rw [selectRows_of_le hl (Int.le_trans (Int.le_of_lt hlt) hbl), selectFrom_eq_some 0 ha hb hle, Nat.zero_add]
  exact fun j c hij hc _ => Int.lt_of_lt_of_le hlt (d_le_of_le hrows hij hb hc)

/-- The last row's own displacement gives the last pair, no row lying between its lower row and the last (R70). -/
theorem selectRows_last {l : HullRow} (hlen : 2 ≤ rows.length) (hl : rows.getLast? = some l) :
    (selectRows rows l.d).map (·.1) = some (rows.length - 2) := by
  have hlast : rows[rows.length - 2 + 1]? = some l := by
    rw [← hl, List.getLast?_eq_getElem?]
    congr 1
    omega
  have hlow : rows[rows.length - 2]? = some rows[rows.length - 2] := List.getElem?_eq_getElem (by omega)
  have hle := d_le_of_le hrows (Nat.le_succ _) hlow hlast
  rw [selectRows_of_le hl (Int.le_refl _), selectFrom_eq_some 0 hlow hlast hle (by omega), Option.map_some, Nat.zero_add]

end Ascending

/-- Settles O54: the quotient by its magnitude and sign, the rows by induction along the table from its top. -/
theorem quotientsRoundAndRowsAreSelected : Obligations.QuotientsRoundAndRowsAreSelected := by
  refine ⟨fun n d hd => roundDiv_nearest n hd, fun n d q hd hhalf => natAbs_le_natAbs_roundDiv hd hhalf,
    by decide, by decide, fun rows delta hlen hrows => ⟨fun f l hf hl => ⟨?outside, ?last⟩, ?between⟩⟩
  case outside =>
    rintro (hlt | hlt)
    · exact selectRows_of_lt_first hrows hf hlt
    · exact selectRows_of_last_lt hl hlt
  case last =>
    rintro rfl
    exact selectRows_last hrows hlen hl
  case between =>
    intro i a b ha hb hle hlt
    exact selectRows_of_between hrows ha hb hle hlt

end Sys2Proof.Machine
end

