-- ==== Sys2Proof/Proofs/TrialRequests.lean ====
section
/-! PROOF. The requests of the trial stack: what the accepted ones leave (R45, R46, R49, R53), and the check by which the
others are refused (R45, R46, R50). -/

namespace Sys2Proof.Machine

/-! ### A request in the hands of its owner -/

theorem asTaken_inProgress {code : Nat} {s : State} (dt : Nat) (h : admits code s) :
    (asTaken dt s).panel.inProgress = none := by
  obtain ⟨-, hidle, -⟩ := h
  have hpanel : (asTaken dt s).panel = s.panel := asTaken_frame dt s .panel (by decide)
  rw [hpanel, hidle]

theorem completeWrite_inProgress {u : State} (h : u.panel.inProgress = none) :
    (completeWrite u).panel.inProgress = none := by
  unfold completeWrite
  split
  · exact h
  · split
    · exact h
    · rfl

theorem asUsed_inProgress {code : Nat} {s : State} (dt : Nat) (h : admits code s) :
    (asUsed dt s).panel.inProgress = none :=
  completeWrite_inProgress (asTaken_inProgress dt h)

/-- A response formed while no request is in progress is all that changes. -/
theorem respond_responded {u : State} (hidle : u.panel.inProgress = none) (code : Nat) (q : Byte) (r : ResultCode)
    (body : ResponseBody) : responded ⟨code, q, r, body⟩ u (respond code q r body u) := by
  simp only [responded, respond, hidle]

section Owners

variable {s : State} {dt : Nat} {q : Byte}

theorem exec_trialAdd {args : Option TrialAddArgs} (h : admits 9 s) :
    exec (.trialAdd dt q args) s = .next (trialAddOwner q args (asUsed dt s)) :=
  congrArg Host.Outcome.next (requestUsingList_admitted (s := elapse dt s) h)

theorem exec_trialMove {args : Option TrialMoveArgs} (h : admits 10 s) :
    exec (.trialMove dt q args) s = .next (trialMoveOwner q args (asUsed dt s)) :=
  congrArg Host.Outcome.next (requestUsingList_admitted (s := elapse dt s) h)

theorem exec_trialDrop {fits : Bool} (h : admits 11 s) :
    exec (.trialDrop dt ⟨q, fits⟩) s = .next (trialDropOwner q fits (asTaken dt s)) :=
  congrArg Host.Outcome.next (request_admitted (s := elapse dt s) h)

theorem exec_trialClear {fits : Bool} (h : admits 12 s) :
    exec (.trialClear dt ⟨q, fits⟩) s = .next (trialClearOwner q fits (asTaken dt s)) :=
  congrArg Host.Outcome.next (request_admitted (s := elapse dt s) h)

theorem exec_trialAdopt {fits : Bool} (h : admits 13 s) :
    exec (.trialAdopt dt ⟨q, fits⟩) s = .next (trialAdoptOwner q fits (asUsed dt s)) :=
  congrArg Host.Outcome.next (requestUsingList_admitted (s := elapse dt s) h)

end Owners

/-! ### Requests without arguments (R43, R186) -/

section WithoutBody

variable {code : Nat} {q : Byte} {fits : Bool} {act : State → State} {u : State}

theorem withoutBody_tank (h : u.role = .tank) : withoutBody code q fits act u = respondHeld code q .role u := by
  simp [withoutBody, firstRefusal, atTank, h]

theorem withoutBody_misfit (h : u.role ≠ .tank) :
    withoutBody code q false act u = respondHeld code q .range u := by
  simp [withoutBody, firstRefusal, atTank, h]

theorem withoutBody_fits (h : u.role ≠ .tank) : withoutBody code q true act u = act u := by
  simp [withoutBody, firstRefusal, atTank, h]

theorem withoutBody_refused {r : ResultCode}
    (h : (u.role = .tank ∧ r = .role) ∨ (u.role ≠ .tank ∧ fits = false ∧ r = .range)) :
    withoutBody code q fits act u = respondHeld code q r u := by
  rcases h with ⟨htank, rfl⟩ | ⟨hrole, rfl, rfl⟩
  · exact withoutBody_tank htank
  · exact withoutBody_misfit hrole

end WithoutBody

/-! ### Changes of the stack (R45, R46, R49) -/

/-- A changed stack with its response: the solver is dirty, and nothing else changes (R53). -/
theorem stackChange_values {v : State} (hidle : v.panel.inProgress = none) (code : Nat) (q : Byte)
    (stack : List TrialEntry) (body : ResponseBody) :
    let t := respond code q .accepted body (markDirty (v.setTrial stack))
    t.trial = stack ∧ t.solver = { v.solver with dirty := true } ∧
      t.panel = ⟨none, v.panel.out ++ [⟨code, q, .accepted, body⟩]⟩ ∧
      onlyChanges [.trial, .solver, .panel] v t := by
  refine ⟨rfl, rfl, ?_, ?_⟩
  · rw [respond_panel, ← hidle]
    rfl
  · have htrial : onlyChanges [.trial, .solver, .panel] v (v.setTrial stack) := by
      intro b hb
      cases b <;> simp_all [sameBlock]
    exact onlyChanges_trans htrial (onlyChanges_trans (onlyChanges_mono (markDirty_frame _) (by decide))
      (onlyChanges_mono (respond_frame _ _ _ _ _) (by decide)))

theorem trialAddOwner_accepted {a : TrialAddArgs} {u : State} (q : Byte) (h : trialAddRefusal a u = none) :
    trialAddOwner q (some a) u = pushTrial 9 q (.add a.mass a.pos a.comp a.length a.breadth a.cls) u := by
  simp only [trialAddOwner, h]

theorem trialMoveOwner_accepted {a : TrialMoveArgs} {i : Item} {u : State} (q : Byte)
    (hearly : trialMoveEarly a u = none) (hfind : findItem a.item u.stowage.items = some i)
    (h : trialMoveRefusal a i u = none) :
    trialMoveOwner q (some a) u = pushTrial 10 q (.move a.item a.pos a.comp false) u := by
  simp only [trialMoveOwner, hearly, hfind, h]

theorem dropTop_append {below : List TrialEntry} {e : TrialEntry} {u : State} (q : Byte) (h : u.trial = below ++ [e]) :
    dropTop q u = respond 11 q .accepted (.dropped (isMove e) below.length) (markDirty (u.setTrial below)) := by
  simp [dropTop, h]

theorem dropTop_empty {u : State} (q : Byte) (h : u.trial = []) : dropTop q u = respond 11 q .stackEmpty (.held 0) u := by
  simp [dropTop, respondHeld, h]

theorem clearStack_held {u : State} (q : Byte) (h : u.trial ≠ []) :
    clearStack q u = respond 12 q .accepted (.held 0) (markDirty (u.setTrial [])) := by
  simp [clearStack, h, respondHeld, markDirty]

theorem clearStack_empty {u : State} (q : Byte) (h : u.trial = []) :
    clearStack q u = respond 12 q .accepted (.held 0) u := by
  simp [clearStack, respondHeld, h]

/-- Settles O31: each request reaches its owner, which pushes, drops or clears, or answers alone. -/
theorem trialStackRequests : Obligations.TrialStackRequests := by
  rintro dt q s u x rfl rfl
  refine ⟨?add, ?move, ?drop, ?dropEmpty, ?clear, ?clearEmpty, ?refused⟩
  case add =>
    intro a hadm hok
    exact ⟨_, (exec_trialAdd hadm).trans (congrArg _ (trialAddOwner_accepted q hok)),
      stackChange_values (asUsed_inProgress dt hadm) 9 q _ _⟩
  case move =>
    intro a i hadm hearly hfind hok
    exact ⟨_, (exec_trialMove hadm).trans (congrArg _ (trialMoveOwner_accepted q hearly hfind hok)),
      stackChange_values (asUsed_inProgress dt hadm) 10 q _ _⟩
  case drop =>
    intro below e hadm hrole hstack
    exact ⟨_, (exec_trialDrop hadm).trans (congrArg _ ((withoutBody_fits hrole).trans (dropTop_append q hstack))),
      stackChange_values (asTaken_inProgress dt hadm) 11 q _ _⟩
  case dropEmpty =>
    intro hadm hrole hstack
    exact ⟨_, (exec_trialDrop hadm).trans (congrArg _ ((withoutBody_fits hrole).trans (dropTop_empty q hstack))),
      respond_responded (asTaken_inProgress dt hadm) 11 q _ _⟩
  case clear =>
    intro hadm hrole hstack
    exact ⟨_, (exec_trialClear hadm).trans (congrArg _ ((withoutBody_fits hrole).trans (clearStack_held q hstack))),
      stackChange_values (asTaken_inProgress dt hadm) 12 q _ _⟩
  case clearEmpty =>
    intro hadm hrole hstack
    exact ⟨_, (exec_trialClear hadm).trans (congrArg _ ((withoutBody_fits hrole).trans (clearStack_empty q hstack))),
      respond_responded (asTaken_inProgress dt hadm) 12 q _ _⟩
  case refused =>
    intro fits c code r hc hcode hadm hwhy
    simp only [List.mem_cons, List.not_mem_nil, or_false] at hc
    rcases hc with rfl | rfl
    · obtain ⟨rfl, -⟩ := Prod.mk.inj (Option.some.inj hcode)
      exact ⟨_, (exec_trialDrop hadm).trans (congrArg _ (withoutBody_refused hwhy)),
        respond_responded (asTaken_inProgress dt hadm) 11 q r _⟩
    · obtain ⟨rfl, -⟩ := Prod.mk.inj (Option.some.inj hcode)
      exact ⟨_, (exec_trialClear hadm).trans (congrArg _ (withoutBody_refused hwhy)),
        respond_responded (asTaken_inProgress dt hadm) 12 q r _⟩

/-! ### Refusals with the entries held (R53) -/

/-- The request `c` is answered with the result `r` and the entries held, and changes nothing else (R53; log 29). -/
def refusedHeld (dt : Nat) (q : Byte) (s : State) (c : Instr) (r : ResultCode) : Prop :=
  ∀ code, requestOf c = some (code, q) → admits code s →
    ∃ t, exec c s = .next t ∧ responded ⟨code, q, r, .held (asUsed dt s).trial.length⟩ (asUsed dt s) t

section Answers

variable {dt : Nat} {q : Byte} {s : State} {r : ResultCode}

theorem refusedHeld_of_owner {c : Instr} {code : Nat} {owner : State → State} (hcode : requestOf c = some (code, q))
    (hexec : admits code s → exec c s = .next (owner (asUsed dt s)))
    (h : owner (asUsed dt s) = respondHeld code q r (asUsed dt s)) : refusedHeld dt q s c r := by
  intro code' hcode' hadm
  obtain ⟨rfl, -⟩ := Prod.mk.inj (Option.some.inj (hcode.symm.trans hcode'))
  exact ⟨_, (hexec hadm).trans (congrArg _ h), respond_responded (asUsed_inProgress dt hadm) code q r _⟩

theorem refusedHeld_trialAdd {args : Option TrialAddArgs}
    (h : trialAddOwner q args (asUsed dt s) = respondHeld 9 q r (asUsed dt s)) :
    refusedHeld dt q s (.trialAdd dt q args) r := refusedHeld_of_owner rfl exec_trialAdd h

theorem refusedHeld_trialMove {args : Option TrialMoveArgs}
    (h : trialMoveOwner q args (asUsed dt s) = respondHeld 10 q r (asUsed dt s)) :
    refusedHeld dt q s (.trialMove dt q args) r := refusedHeld_of_owner rfl exec_trialMove h

end Answers

theorem trialAddOwner_tank {u : State} (q : Byte) (args : Option TrialAddArgs) (h : u.role = .tank) :
    trialAddOwner q args u = respondHeld 9 q .role u := by
  cases args <;> simp [trialAddOwner, misfit, trialAddRefusal, firstRefusal, atTank, h]

theorem trialMoveOwner_tank {u : State} (q : Byte) (args : Option TrialMoveArgs) (h : u.role = .tank) :
    trialMoveOwner q args u = respondHeld 10 q .role u := by
  cases args <;> simp [trialMoveOwner, misfit, trialMoveEarly, firstRefusal, atTank, h]

/-- An entry is refused by its placement first, then by its segregation (R45, R46, R50). -/
theorem placement_then_segregation (place : Option ResultCode) (fails : Bool) :
    (∀ r, place = some r → place.or (if fails = true then some .segregation else none) = some r) ∧
      (place = none → fails = true →
        place.or (if fails = true then some .segregation else none) = some .segregation) := by
  constructor
  · rintro r rfl
    rfl
  · rintro rfl rfl
    rfl

/-! ### The checks of TRIAL ADD (R45) -/

theorem cargoInRange_iff {u : State} {mass : Int} {pos : Point} {comp : Nat} {length breadth : Int} {cls : Option Nat} :
    cargoInRange u mass pos comp length breadth cls = true ↔
      1 ≤ mass ∧ mass ≤ 100000 ∧ pointInRange pos = true ∧ 1 ≤ comp ∧ comp ≤ u.img.compartments.length ∧
        100 ≤ length ∧ length ≤ 30000 ∧ 100 ≤ breadth ∧ breadth ≤ 30000 ∧ ∀ c, cls = some c → 1 ≤ c ∧ c ≤ 9 := by
  cases cls <;> simp [cargoInRange, within, compInRange, classInRange, and_assoc]

theorem mapBlocks_iff {u : State} {cls : Option Nat} :
    mapBlocks u cls = true ↔ cls.isSome = true ∧ u.stowage.mapIncomplete = true := Bool.and_eq_true_iff

section AddChecks

variable {a : TrialAddArgs} {u : State} (hrole : u.role ≠ .tank)
include hrole

theorem trialAddRefusal_range (h : ¬ cargoInRange u a.mass a.pos a.comp a.length a.breadth a.cls = true) :
    trialAddRefusal a u = some .range := by
  simp [trialAddRefusal, firstRefusal, atTank, hrole, h]

variable (hrange : cargoInRange u a.mass a.pos a.comp a.length a.breadth a.cls = true)
include hrange

theorem trialAddRefusal_full (h : 8 ≤ u.trial.length) : trialAddRefusal a u = some .stackFull := by
  simp [trialAddRefusal, firstRefusal, atTank, stackFull, hrole, hrange, h]

variable (hroom : u.trial.length < 8)
include hroom

theorem trialAddRefusal_map (h : mapBlocks u a.cls = true) : trialAddRefusal a u = some .mapFull := by
  simp [trialAddRefusal, firstRefusal, atTank, stackFull, hrole, hrange, Nat.not_le.mpr hroom, h]

/-- Past R45's first four checks an ADD is judged as an entry above the stack. -/
theorem trialAddRefusal_entry (h : ¬ mapBlocks u a.cls = true) :
    trialAddRefusal a u = addEntryRefusal u a.mass a.pos a.comp a.length a.breadth a.cls u.trial := by
  simp [trialAddRefusal, firstRefusal, atTank, stackFull, hrole, hrange, Nat.not_le.mpr hroom, h]

end AddChecks

/-! ### The checks of TRIAL MOVE (R46) -/

/-- The ranges of TRIAL MOVE's arguments (R44). -/
theorem moveInRange_iff {u : State} {a : TrialMoveArgs} :
    (itemInRange a.item && pointInRange a.pos && compInRange u a.comp) = true ↔
      1 ≤ a.item ∧ a.item ≤ 255 ∧ pointInRange a.pos = true ∧ 1 ≤ a.comp ∧ a.comp ≤ u.img.compartments.length := by
  simp [itemInRange, compInRange, and_assoc]

section MoveEarly

variable {a : TrialMoveArgs} {u : State} (hrole : u.role ≠ .tank)
include hrole

theorem trialMoveEarly_range (h : ¬ (itemInRange a.item && pointInRange a.pos && compInRange u a.comp) = true) :
    trialMoveEarly a u = some .range := by
  rw [Bool.not_eq_true] at h
  simp [trialMoveEarly, firstRefusal, atTank, hrole, h]

variable (hrange : (itemInRange a.item && pointInRange a.pos && compInRange u a.comp) = true)
include hrange

theorem trialMoveEarly_full (h : 8 ≤ u.trial.length) : trialMoveEarly a u = some .stackFull := by
  simp only [trialMoveEarly, firstRefusal, atTank, stackFull, hrole, hrange, h, decide_true, decide_false,
    Bool.not_true, Bool.false_eq_true, if_true, if_false]

theorem trialMoveEarly_none (h : u.trial.length < 8) : trialMoveEarly a u = none := by
  simp only [trialMoveEarly, firstRefusal, atTank, stackFull, hrole, hrange, Nat.not_le.mpr h, decide_false,
    Bool.not_true, Bool.false_eq_true, if_false]

end MoveEarly

theorem findItem_number {n : Nat} {items : List Item} {i : Item} (h : findItem n items = some i) : i.number = n :=
  of_decide_eq_true (p := i.number = n) (List.find?_some (p := fun j : Item => decide (j.number = n)) h)

section MoveChecks

variable {a : TrialMoveArgs} {i : Item} {u : State}

theorem trialMoveRefusal_state (h : i.state ≠ .plannedIn) : trialMoveRefusal a i u = some .itemState := by
  simp [trialMoveRefusal, firstRefusal, h]

theorem trialMoveRefusal_claim (hstate : i.state = .plannedIn) (h : underClaim u i.number = true) :
    trialMoveRefusal a i u = some .claimActive := by
  simp [trialMoveRefusal, firstRefusal, hstate, h]

theorem trialMoveRefusal_map (hstate : i.state = .plannedIn) (hfree : underClaim u i.number = false)
    (h : mapBlocks u i.cls = true) : trialMoveRefusal a i u = some .mapFull := by
  simp [trialMoveRefusal, firstRefusal, hstate, hfree, h]

/-- Past R46's first seven checks a MOVE is judged as an entry above the stack. -/
theorem trialMoveRefusal_entry (hstate : i.state = .plannedIn) (hfree : underClaim u i.number = false)
    (h : ¬ mapBlocks u i.cls = true) : trialMoveRefusal a i u = moveEntryRefusal u i a.pos a.comp u.trial := by
  simp [trialMoveRefusal, firstRefusal, hstate, hfree, h]

end MoveChecks

/-! ### The checks of TRIAL ADOPT (R50) -/

theorem anyMove_iff {p : Nat → Bool} {stack : List TrialEntry} :
    anyMove p stack = true ↔ ∃ n pos c, .move n pos c false ∈ stack ∧ p n = true := by
  rw [anyMove, List.any_eq_true]
  constructor
  · rintro ⟨_ | ⟨n, pos, c, _ | _⟩, hmem, hp⟩
    · cases hp
    · exact ⟨n, pos, c, hmem, hp⟩
    · cases hp
  · rintro ⟨n, pos, c, hmem, hp⟩
    exact ⟨_, hmem, hp⟩

/-- An entry that counts against an incomplete map is a classed ADD, or a MOVE of a classed item that is not VOID. -/
theorem any_adoptsClass_iff {u : State} {stack : List TrialEntry} :
    stack.any (adoptsClass u) = true ↔ (∃ m p k l b c, .add m p k l b (some c) ∈ stack) ∨
      ∃ n p c i, .move n p c false ∈ stack ∧ findItem n u.stowage.items = some i ∧ i.cls ≠ none := by
  rw [List.any_eq_true]
  constructor
  · rintro ⟨⟨m, p, k, l, b, _ | c⟩ | ⟨n, p, c, _ | _⟩, hmem, h⟩
    · cases h
    · exact .inl ⟨m, p, k, l, b, c, hmem⟩
    · obtain ⟨i, hfind, hcls⟩ := (Option.any_eq_true (fun i : Item => i.cls.isSome) (findItem n u.stowage.items)).mp h
      exact .inr ⟨n, p, c, i, hmem, hfind, Option.isSome_iff_ne_none.mp hcls⟩
    · cases h
  · rintro (⟨m, p, k, l, b, c, hmem⟩ | ⟨n, p, c, i, hmem, hfind, hcls⟩)
    · exact ⟨_, hmem, rfl⟩
    · refine ⟨_, hmem, ?_⟩
      simp [adoptsClass, hfind, Option.isSome_iff_ne_none, hcls]

section AdoptEarly

variable {u : State} (hrole : u.role ≠ .tank)
include hrole

theorem adoptEarly_empty (h : u.trial = []) : adoptEarly u = some .stackEmpty := by
  simp [adoptEarly, firstRefusal, atTank, hrole, h]

variable (hheld : u.trial ≠ [])
include hheld

theorem adoptEarly_claim (h : anyMove (underClaim u) u.trial = true) : adoptEarly u = some .claimActive := by
  simp [adoptEarly, firstRefusal, atTank, hrole, hheld, h]

variable (hfree : ¬ anyMove (underClaim u) u.trial = true)
include hfree

theorem adoptEarly_full (h : 64 < u.stowage.items.length + countAdds u.trial) : adoptEarly u = some .listFull := by
  simp [adoptEarly, firstRefusal, atTank, hrole, hheld, hfree, h]

theorem adoptEarly_map (hroom : u.stowage.items.length + countAdds u.trial ≤ 64)
    (hmap : u.stowage.mapIncomplete = true) (h : u.trial.any (adoptsClass u) = true) :
    adoptEarly u = some .mapFull := by
  simp only [adoptEarly, firstRefusal, atTank, hrole, hfree, hmap, h, Nat.not_lt.mpr hroom, List.isEmpty_iff, hheld,
    decide_false, Bool.and_true, Bool.false_eq_true, if_true, if_false]

end AdoptEarly

/-- The first entry refused from the bottom is the one named, by its position (R50). -/
theorem stackRefusal_first {u : State} {e : TrialEntry} {rest : List TrialEntry} {r : ResultCode}
    (below : List TrialEntry) : ∀ pre : List TrialEntry,
    (∀ as o bs, below = as ++ o :: bs → entryRefusal u (pre ++ as) o = none) →
    entryRefusal u (pre ++ below) e = some r →
    stackRefusal u pre (below ++ e :: rest) = some ((pre ++ below).length + 1, r) := by
  induction below with
  | nil =>
    intro pre _ he
    rw [List.append_nil] at he
    simp only [List.nil_append, List.append_nil, stackRefusal, he]
  | cons o below ih =>
    intro pre hpass he
    have ho : entryRefusal u pre o = none := by simpa using hpass [] o below rfl
    have htail := ih (pre ++ [o]) (fun as o' bs h => by simpa using hpass (o :: as) o' bs (by rw [h]; rfl))
      (by simpa using he)
    simpa [stackRefusal, ho] using htail

theorem adoptStack_early {u : State} {r : ResultCode} (q : Byte) (h : adoptEarly u = some r) :
    adoptStack q u = respondHeld 13 q r u := by
  simp only [adoptStack, h]

theorem adoptStack_entry {u : State} {position : Nat} {r : ResultCode} (q : Byte) (hearly : adoptEarly u = none)
    (h : stackRefusal u [] u.trial = some (position, r)) :
    adoptStack q u = respond 13 q r (.adoptFailed position u.trial.length) u := by
  simp only [adoptStack, hearly, h]

/-! ### The refusals in their order (R45, R46, R50) -/

section InOrder

variable {dt : Nat} {q : Byte} {s : State} {r : ResultCode}

theorem refusedHeld_add {a : TrialAddArgs} (h : trialAddRefusal a (asUsed dt s) = some r) :
    refusedHeld dt q s (.trialAdd dt q (some a)) r :=
  refusedHeld_trialAdd (by simp only [trialAddOwner, h])

theorem refusedHeld_move {a : TrialMoveArgs} {i : Item} (hearly : trialMoveEarly a (asUsed dt s) = none)
    (hfind : findItem a.item (asUsed dt s).stowage.items = some i) (h : trialMoveRefusal a i (asUsed dt s) = some r) :
    refusedHeld dt q s (.trialMove dt q (some a)) r :=
  refusedHeld_trialMove (by simp only [trialMoveOwner, hearly, hfind, h])

theorem refusedHeld_moveEarly {a : TrialMoveArgs} (h : trialMoveEarly a (asUsed dt s) = some r) :
    refusedHeld dt q s (.trialMove dt q (some a)) r :=
  refusedHeld_trialMove (by simp only [trialMoveOwner, h])

theorem refusedHeld_moveUnknown {a : TrialMoveArgs} (hearly : trialMoveEarly a (asUsed dt s) = none)
    (hfind : findItem a.item (asUsed dt s).stowage.items = none) :
    refusedHeld dt q s (.trialMove dt q (some a)) .unknownItem :=
  refusedHeld_trialMove (by simp only [trialMoveOwner, hearly, hfind])

end InOrder

/-- The order of TRIAL ADD's checks (R45). -/
theorem trialAdd_refusedInOrder (dt : Nat) (q : Byte) (s : State) (a : TrialAddArgs)
    (hrole : (asUsed dt s).role ≠ .tank) :
    let u := asUsed dt s
    let refused := refusedHeld dt q s (.trialAdd dt q (some a))
    let inRange := cargoInRange u a.mass a.pos a.comp a.length a.breadth a.cls = true
    (¬ inRange → refused .range) ∧ (inRange → 8 ≤ u.trial.length → refused .stackFull) ∧
      (inRange → u.trial.length < 8 → mapBlocks u a.cls = true → refused .mapFull) ∧
      (inRange → u.trial.length < 8 → ¬ mapBlocks u a.cls = true →
        (∀ r, placementRefusal u a.pos a.comp a.mass a.length a.breadth = some r → refused r) ∧
        (placementRefusal u a.pos a.comp a.mass a.length a.breadth = none →
          trialSegregated u none a.cls a.pos a.comp u.trial = true → refused .segregation)) := by
  refine ⟨fun hrange => refusedHeld_add (trialAddRefusal_range hrole hrange),
    fun hrange hfull => refusedHeld_add (trialAddRefusal_full hrole hrange hfull),
    fun hrange hroom hmap => refusedHeld_add (trialAddRefusal_map hrole hrange hroom hmap),
    fun hrange hroom hmap => ?_⟩
  have hentry := trialAddRefusal_entry hrole hrange hroom hmap
  obtain ⟨hplacement, hsegregation⟩ := placement_then_segregation
    (placementRefusal (asUsed dt s) a.pos a.comp a.mass a.length a.breadth)
    (trialSegregated (asUsed dt s) none a.cls a.pos a.comp (asUsed dt s).trial)
  exact ⟨fun r hplace => refusedHeld_add (hentry.trans (hplacement r hplace)),
    fun hplace hseg => refusedHeld_add (hentry.trans (hsegregation hplace hseg))⟩

/-- The order of TRIAL MOVE's checks (R46). -/
theorem trialMove_refusedInOrder (dt : Nat) (q : Byte) (s : State) (a : TrialMoveArgs)
    (hrole : (asUsed dt s).role ≠ .tank) :
    let u := asUsed dt s
    let refused := refusedHeld dt q s (.trialMove dt q (some a))
    let inRange := (itemInRange a.item && pointInRange a.pos && compInRange u a.comp) = true
    (¬ inRange → refused .range) ∧ (inRange → 8 ≤ u.trial.length → refused .stackFull) ∧
      (inRange → u.trial.length < 8 → findItem a.item u.stowage.items = none → refused .unknownItem) ∧
      (∀ i, inRange → u.trial.length < 8 → findItem a.item u.stowage.items = some i →
        (i.state ≠ .plannedIn → refused .itemState) ∧
        (i.state = .plannedIn → underClaim u a.item = true → refused .claimActive) ∧
        (i.state = .plannedIn → underClaim u a.item = false → mapBlocks u i.cls = true → refused .mapFull) ∧
        (i.state = .plannedIn → underClaim u a.item = false → ¬ mapBlocks u i.cls = true →
          (∀ r, placementRefusal u a.pos a.comp i.mass i.length i.breadth = some r → refused r) ∧
          (placementRefusal u a.pos a.comp i.mass i.length i.breadth = none →
            trialSegregated u (some a.item) i.cls a.pos a.comp u.trial = true → refused .segregation))) := by
  refine ⟨fun hrange => refusedHeld_moveEarly (trialMoveEarly_range hrole hrange),
    fun hrange hfull => refusedHeld_moveEarly (trialMoveEarly_full hrole hrange hfull),
    fun hrange hroom hfind => refusedHeld_moveUnknown (trialMoveEarly_none hrole hrange hroom) hfind,
    fun i hrange hroom hfind => ?_⟩
  have hmove : ∀ r, trialMoveRefusal a i (asUsed dt s) = some r → refusedHeld dt q s (.trialMove dt q (some a)) r :=
    fun _ => refusedHeld_move (trialMoveEarly_none hrole hrange hroom) hfind
  rw [← findItem_number hfind]
  refine ⟨fun hstate => hmove _ (trialMoveRefusal_state hstate),
    fun hstate hclaim => hmove _ (trialMoveRefusal_claim hstate hclaim),
    fun hstate hfree hmap => hmove _ (trialMoveRefusal_map hstate hfree hmap), fun hstate hfree hmap => ?_⟩
  have hentry := trialMoveRefusal_entry (a := a) hstate hfree hmap
  obtain ⟨hplacement, hsegregation⟩ := placement_then_segregation
    (placementRefusal (asUsed dt s) a.pos a.comp i.mass i.length i.breadth)
    (trialSegregated (asUsed dt s) (some i.number) i.cls a.pos a.comp (asUsed dt s).trial)
  exact ⟨fun r hplace => hmove r (hentry.trans (hplacement r hplace)),
    fun hplace hseg => hmove _ (hentry.trans (hsegregation hplace hseg))⟩

/-- The order of TRIAL ADOPT's checks, entry by entry at the end (R50). -/
theorem adoptStack_refusedInOrder (q : Byte) (u : State) (hrole : u.role ≠ .tank) :
    let refused := fun r => adoptStack q u = respondHeld 13 q r u
    let claimed := anyMove (underClaim u) u.trial = true
    (u.trial = [] → refused .stackEmpty) ∧ (claimed → refused .claimActive) ∧
      (u.trial ≠ [] → ¬ claimed → 64 < u.stowage.items.length + countAdds u.trial → refused .listFull) ∧
      (¬ claimed → u.stowage.items.length + countAdds u.trial ≤ 64 → u.stowage.mapIncomplete = true →
        u.trial.any (adoptsClass u) = true → refused .mapFull) ∧
      (∀ below e rest r, adoptEarly u = none → u.trial = below ++ e :: rest →
        (∀ as o bs, below = as ++ o :: bs → entryRefusal u as o = none) → entryRefusal u below e = some r →
        adoptStack q u = respond 13 q r (.adoptFailed (below.length + 1) u.trial.length) u) := by
  have hheld : ∀ p : TrialEntry → Bool, u.trial.any p = true → u.trial ≠ [] := by
    rintro p hany hempty
    rw [hempty] at hany
    cases hany
  refine ⟨fun hempty => adoptStack_early q (adoptEarly_empty hrole hempty),
    fun hclaim => adoptStack_early q (adoptEarly_claim hrole (hheld _ hclaim) hclaim),
    fun hne hfree hfull => adoptStack_early q (adoptEarly_full hrole hne hfree hfull),
    fun hfree hroom hmap hcls => adoptStack_early q (adoptEarly_map hrole (hheld _ hcls) hfree hroom hmap hcls),
    fun below e rest r hearly hstack hpass hfail => adoptStack_entry q hearly ?_⟩
  rw [hstack]
  exact stackRefusal_first below [] hpass hfail

/-- Settles O32: a request that its state admits reaches its owner, whose first failing check gives the result. -/
theorem trialRequestsRefusedInOrder : Obligations.TrialRequestsRefusedInOrder := by
  refine ⟨?pushes, ?adopt, ?entries⟩
  case pushes =>
    rintro dt q s u rfl
    refine ⟨fun a b htank => ?tank, fun hrole => ?misfit, fun a hrole => ?add, fun a hrole => ?move⟩
    case tank =>
      exact ⟨refusedHeld_trialAdd (trialAddOwner_tank q a htank), refusedHeld_trialMove (trialMoveOwner_tank q b htank)⟩
    case misfit =>
      have hrange : misfit (asUsed dt s) = .range := by simp [misfit, atTank, hrole]
      exact ⟨refusedHeld_trialAdd (by rw [trialAddOwner, hrange]), refusedHeld_trialMove (by rw [trialMoveOwner, hrange])⟩
    case add =>
      have h := trialAdd_refusedInOrder dt q s a hrole
      simp only [cargoInRange_iff, mapBlocks_iff] at h
      exact h
    case move =>
      have h := trialMove_refusedInOrder dt q s a hrole
      simp only [moveInRange_iff, mapBlocks_iff] at h
      exact h
  case adopt =>
    rintro dt q fits s u hadm rfl
    have hanswer : ∀ r body, trialAdoptOwner q fits (asUsed dt s) = respond 13 q r body (asUsed dt s) →
        ∃ t, exec (.trialAdopt dt ⟨q, fits⟩) s = .next t ∧ responded ⟨13, q, r, body⟩ (asUsed dt s) t :=
      fun r body h => ⟨_, (exec_trialAdopt hadm).trans (congrArg _ h),
        respond_responded (asUsed_inProgress dt hadm) 13 q r body⟩
    refine ⟨fun htank => hanswer _ _ (withoutBody_tank htank), ?_, ?_⟩
    · rintro hrole rfl
      exact hanswer _ _ (withoutBody_misfit hrole)
    · rintro hrole rfl
      obtain ⟨hempty, hclaim, hfull, hmap, hentry⟩ := adoptStack_refusedInOrder q (asUsed dt s) hrole
      have howner : trialAdoptOwner q true (asUsed dt s) = adoptStack q (asUsed dt s) := withoutBody_fits hrole
      simp only [anyMove_iff, any_adoptsClass_iff, ← howner] at hempty hclaim hfull hmap hentry
      exact ⟨fun h => hanswer _ _ (hempty h), fun h => hanswer _ _ (hclaim h),
        fun h1 h2 h3 => hanswer _ _ (hfull h1 h2 h3), fun h1 h2 h3 h4 => hanswer _ _ (hmap h1 h2 h3 h4),
        fun below e rest r h1 h2 h3 h4 => hanswer _ _ (hentry below e rest r h1 h2 h3 h4)⟩
  case entries =>
    intro u below
    refine ⟨fun m p k l b c => rfl, fun n p k => rfl, fun n p k i hfind => ?_⟩
    simp only [entryRefusal, hfind, Option.bind_some]
    rfl

end Sys2Proof.Machine
end

