-- ==== Sys2Proof/Proofs/FinalLoads.lean ====
section
/-! PROOF. FINAL depends on its item and trial terms only through the mass they put at each place (R52, R61, R67 to
R69, R78). -/

namespace Sys2Proof.Machine

/-! ### Weighed masses of terms -/

/-- The masses of item terms, each weighed by a function of its point and compartment; every sum over the terms is one. -/
def weigh (w : Point → Nat → Int) (ts : List CompTerm) : Int := (ts.map (fun t => t.mass * w t.point t.comp)).sum

@[simp] theorem weigh_nil (w : Point → Nat → Int) : weigh w [] = 0 := rfl

@[simp] theorem weigh_cons (w : Point → Nat → Int) (t : CompTerm) (ts : List CompTerm) :
    weigh w (t :: ts) = t.mass * w t.point t.comp + weigh w ts := List.sum_cons

@[simp] theorem weigh_append (w : Point → Nat → Int) (ts us : List CompTerm) :
    weigh w (ts ++ us) = weigh w ts + weigh w us := by
  rw [weigh, List.map_append, List.sum_append]
  rfl

theorem massIn_eq_weigh (c : Nat) (ts : List CompTerm) :
    massIn c ts = weigh (fun _ k => if k = c then 1 else 0) ts := by
  induction ts with
  | nil => rfl
  | cons t ts ih =>
    rw [weigh_cons, ← ih, massIn, massIn, List.filter_cons]
    by_cases hc : t.comp = c <;> simp [hc]

/-! ### Sums of terms (R61, R69) -/

theorem addAft_map (xs : List Int) (f g : Int → AftSum) :
    addAft (xs.map f) (xs.map g) = xs.map (fun x => ⟨(f x).mass + (g x).mass, (f x).moment + (g x).moment⟩) := by
  induction xs with
  | nil => rfl
  | cons x xs ih => simp only [List.map_cons, addAft, ih]

theorem addAft_right_comm (a b c : List AftSum) : addAft (addAft a b) c = addAft (addAft a c) b := by
  induction a generalizing b c with
  | nil => rfl
  | cons a as ih =>
    cases b <;> cases c <;> simp only [addAft, ih, Int.add_right_comm]

theorem addAft_assoc {b c : List AftSum} (hlen : b.length = c.length) (a : List AftSum) :
    addAft (addAft a b) c = addAft a (addAft b c) := by
  induction a generalizing b c with
  | nil => rfl
  | cons a as ih =>
    match b, c, hlen with
    | [], [], _ => rfl
    | b :: bs, c :: cs, hlen => simp only [addAft, ih (Nat.succ.inj hlen), Int.add_assoc]

theorem addSum_right_comm (a b c : Aggregate) : addSum (addSum a b) c = addSum (addSum a c) b := by
  simp only [addSum, addAft_right_comm a.aft b.aft c.aft, Int.add_right_comm]

theorem addSum_assoc {b c : Aggregate} (hlen : b.aft.length = c.aft.length) (a : Aggregate) :
    addSum (addSum a b) c = addSum a (addSum b c) := by
  simp only [addSum, addAft_assoc hlen, Int.add_assoc]

/-- A sum added first may as well be added last. -/
theorem foldl_addSum (a d : Aggregate) (ts : List Aggregate) :
    ts.foldl addSum (addSum a d) = addSum (ts.foldl addSum a) d :=
  List.foldl_hom (fun b => addSum b d) (fun b t => addSum_right_comm b d t)

theorem compSum_cons (xs : List Int) (t : CompTerm) (ts : List CompTerm) :
    compSum xs (t :: ts) = addSum (compSum xs ts) (pointSum xs (massAt t.mass t.point)) :=
  foldl_addSum (zeroSum xs) _ _

/-- The field-by-field sum of item terms over the sections `xs`, each field the masses under its own weight. -/
theorem compSum_eq (xs : List Int) (ts : List CompTerm) :
    compSum xs ts =
      { mass := weigh (fun _ _ => 1) ts, mx := weigh (fun p _ => p.x) ts, my := weigh (fun p _ => p.y) ts
        mz := weigh (fun p _ => p.z) ts, fs := 0
        aft := xs.map (fun x => ⟨weigh (fun p _ => if p.x < x then 1 else 0) ts,
          weigh (fun p _ => if p.x < x then x - p.x else 0) ts⟩) } := by
  induction ts with
  | nil => rfl
  | cons t ts ih =>
    have haft : ∀ x, aftOf t.mass t.point.x x =
        ⟨t.mass * (if t.point.x < x then 1 else 0), t.mass * (if t.point.x < x then x - t.point.x else 0)⟩ := by
      intro x
      by_cases hx : t.point.x < x <;> simp [aftOf, hx]
    have hweigh : ∀ w, weigh w (t :: ts) = weigh w ts + t.mass * w t.point t.comp := fun w =>
      (weigh_cons w t ts).trans (Int.add_comm _ _)
    simp only [compSum_cons, ih, addSum, pointSum, massAt, addAft_map, haft, hweigh, Int.mul_one, Int.add_zero]

theorem compSum_append (xs : List Int) (ts us : List CompTerm) :
    compSum xs (ts ++ us) = addSum (compSum xs ts) (compSum xs us) := by
  simp only [compSum_eq, addSum, addAft_map, weigh_append, Int.add_zero]

theorem compSum_congr (xs : List Int) {ts us : List CompTerm} (h : ∀ w, weigh w ts = weigh w us) :
    compSum xs ts = compSum xs us := by
  simp only [compSum_eq, h]

theorem compSum_aft_length (xs : List Int) (ts : List CompTerm) : (compSum xs ts).aft.length = xs.length := by
  rw [compSum_eq, List.length_map]

/-! ### The FINAL record (R67, R68, R82) -/

/-- What FINAL counts of the plan: the own planned delta and the trial stack (R52, R67). -/
def planTerms (w : Snapshot) : List CompTerm := w.items.filterMap deltaTerm ++ trialTerms w.items w.trials

/-- The plan enters FINAL's sums as one list of terms. -/
theorem finalSum_eq (p : PassInput) :
    finalSum p = addSum (totalSum p.xs (baseSums p ++ p.snap.peers.filterMap (fun e => e.share.map (·.planned))))
      (compSum p.xs (planTerms p.snap)) := by
  have hlen : ∀ ts us, (compSum p.xs ts).aft.length = (compSum p.xs us).aft.length := fun ts us =>
    (compSum_aft_length p.xs ts).trans (compSum_aft_length p.xs us).symm
  simp only [finalSum, totalSum, List.foldl_append, List.foldl_cons, List.foldl_nil, foldl_addSum, ownDelta, planTerms,
    compSum_append]
  rw [addSum_assoc (hlen _ _)]

/-- Two pass inputs alike in all that FINAL rests on but its plan, whose masses stand at the same places. -/
structure SameFinal (p q : PassInput) : Prop where
  image : q.image = p.image
  owned : q.owned = p.owned
  notTank : p.role ≠ .tank ∧ q.role ≠ .tank
  time : q.snap.time = p.snap.time
  clean : q.snap.clean = p.snap.clean
  peers : q.snap.peers = p.snap.peers
  base : q.snap.items.filterMap baseTerm = p.snap.items.filterMap baseTerm
  plan : ∀ w, weigh w (planTerms q.snap) = weigh w (planTerms p.snap)

namespace SameFinal

variable {p q : PassInput} (h : SameFinal p q)
include h

theorem xs_eq : q.xs = p.xs := by rw [PassInput.xs, PassInput.xs, h.image]

theorem baseSums_eq : baseSums q = baseSums p := by
  obtain ⟨hp, hq⟩ := h.notTank
  simp only [baseSums, ownBase, hp, hq, if_false, h.xs_eq, h.image, h.base, h.peers]

theorem finalSum_eq : finalSum q = finalSum p := by
  simp only [Machine.finalSum_eq, h.xs_eq, h.baseSums_eq, h.peers, compSum_congr p.xs h.plan]

theorem massIn_finalTerms (c : Nat) : massIn c (finalTerms q) = massIn c (finalTerms p) := by
  have hplan := h.plan (fun _ k => if k = c then 1 else 0)
  simp only [planTerms, weigh_append] at hplan
  simp only [massIn_eq_weigh, finalTerms, h.base, weigh_append, Int.add_assoc, hplan]

theorem compChecks_eq : compChecksOf q.owned (finalTerms q) = compChecksOf p.owned (finalTerms p) := by
  simp only [compChecksOf, h.owned, h.massIn_finalTerms]

theorem finalRecord_eq (n : Nat) : finalRecord q n = finalRecord p n := by
  simp only [finalRecord, h.finalSum_eq, recordOf, solveSum, solveIn, strengthJudged, h.image, h.time, h.clean, h.peers,
    h.compChecks_eq]

end SameFinal

end Sys2Proof.Machine
end

