-- ==== Sys2Proof/Proofs/AdoptionKeepsFinal.lean ====
section
/-! PROOF. An adoption moves the trial stack's terms into the own planned delta, so FINAL stays (R51, R52): the list it
leaves follows the terms of R52 entry by entry. -/

namespace Sys2Proof.Machine

/-! ### Numbers of the list (R21) -/

/-- A list shorter than `k` leaves out one of the numbers 1 to `k`. -/
theorem exists_succ_not_mem {k : Nat} {numbers : List Nat} (hlen : numbers.length < k) :
    ∃ m, m < k ∧ m + 1 ∉ numbers := by
  induction k generalizing numbers with
  | zero => exact absurd hlen (Nat.not_lt_zero _)
  | succ k ih =>
    by_cases hmem : k + 1 ∈ numbers
    · have herase : (numbers.erase (k + 1)).length < k := by
        have hpos := List.length_pos_of_mem hmem
        rw [List.length_erase_of_mem hmem]
        omega
      obtain ⟨m, hm, hfree⟩ := ih herase
      exact ⟨m, Nat.lt_succ_of_lt hm, fun h => hfree ((List.mem_erase_of_ne (by omega)).mpr h)⟩
    · exact ⟨k, Nat.lt_succ_self k, hmem⟩

theorem findItem_eq_none {n : Nat} {items : List Item} (h : n ∉ items.map (·.number)) : findItem n items = none := by
  rw [findItem, List.find?_eq_none]
  intro i hi hnumber
  exact h (List.mem_map.mpr ⟨i, hi, of_decide_eq_true hnumber⟩)

/-- A list of fewer than 255 records leaves a number free. -/
theorem findItem_lowestFree {items : List Item} (hlen : items.length < 255) :
    findItem (lowestFree items) items = none := by
  obtain ⟨m, hm, hfree⟩ := exists_succ_not_mem (numbers := items.map (·.number)) (List.length_map _ ▸ hlen)
  have hcandidate : ∃ n, n ∈ (List.range 255).map (· + 1) ∧ (findItem n items).isNone = true :=
    ⟨m + 1, List.mem_map.mpr ⟨m, List.mem_range.mpr hm, rfl⟩, Option.isNone_iff_eq_none.mpr (findItem_eq_none hfree)⟩
  obtain ⟨n, hn⟩ := Option.isSome_iff_exists.mp (List.find?_isSome.mpr hcandidate)
  have hfound := List.find?_some hn
  rw [lowestFree, hn]
  exact Option.isNone_iff_eq_none.mp hfound

theorem findItem_replaceItem (m : Nat) (j : Item) (items : List Item) :
    findItem m (replaceItem j items) = (findItem m items).map (fun i => if i.number = j.number then j else i) := by
  have hnumber : (fun i : Item => decide ((if i.number = j.number then j else i).number = m)) =
      fun i => decide (i.number = m) := by
    funext i
    split
    · rw [‹i.number = j.number›]
    · rfl
  rw [findItem, replaceItem, List.find?_map]
  exact congrArg (fun p => (items.find? p).map _) hnumber

theorem map_number_replaceItem (j : Item) (items : List Item) :
    (replaceItem j items).map (·.number) = items.map (·.number) := by
  rw [replaceItem, List.map_map]
  refine List.map_congr_left fun i _ => ?_
  by_cases hi : i.number = j.number <;> simp [hi]

theorem replaceItem_of_absent {j : Item} {items : List Item} (h : j.number ∉ items.map (·.number)) :
    replaceItem j items = items := by
  have hstay : ∀ i ∈ items, (if i.number = j.number then j else i) = id i := fun i hi =>
    if_neg fun hsame => h (List.mem_map.mpr ⟨i, hi, hsame⟩)
  exact (List.map_congr_left hstay).trans (List.map_id items)

/-- Where no two numbers are alike, a record is replaced in its one place. -/
theorem replaceItem_place {items : List Item} {n : Nat} {i : Item} (hnodup : (items.map (·.number)).Nodup)
    (hfind : findItem n items = some i) :
    ∃ as bs, items = as ++ i :: bs ∧ ∀ j : Item, j.number = n → replaceItem j items = as ++ j :: bs := by
  obtain ⟨as, bs, rfl⟩ := List.append_of_mem (List.mem_of_find?_eq_some hfind)
  refine ⟨as, bs, rfl, fun j hj => ?_⟩
  have hnumber : i.number = j.number := (findItem_number hfind).trans hj.symm
  rw [List.map_append, List.map_cons, List.nodup_append, List.nodup_cons, hnumber] at hnodup
  obtain ⟨-, ⟨hbs, -⟩, hapart⟩ := hnodup
  have has : j.number ∉ as.map (·.number) := fun hmem => hapart _ hmem _ List.mem_cons_self rfl
  calc replaceItem j (as ++ i :: bs)
      = replaceItem j as ++ (if i.number = j.number then j else i) :: replaceItem j bs := by
        rw [replaceItem, List.map_append, List.map_cons]
        rfl
    _ = as ++ j :: bs := by rw [replaceItem_of_absent has, replaceItem_of_absent hbs, if_pos hnumber]

theorem findItem_of_mem {items : List Item} {i : Item} (hnodup : (items.map (·.number)).Nodup) (hi : i ∈ items) :
    findItem i.number items = some i := by
  induction items with
  | nil => cases hi
  | cons j rest ih =>
    obtain ⟨hj, hrest⟩ := List.nodup_cons.mp hnodup
    rcases List.mem_cons.mp hi with rfl | hmem
    · exact List.find?_cons_of_pos (decide_eq_true rfl)
    · have hne : j.number ≠ i.number := fun hsame => hj (List.mem_map.mpr ⟨i, hmem, hsame.symm⟩)
      rw [findItem, List.find?_cons, decide_eq_false hne]
      exact ih hrest hmem

/-! ### One entry adopted (R51) -/

/-- A record at a new planned position and compartment. -/
def replanned (i : Item) (place : Point × Nat) : Item := { i with planned := place.1, comp := place.2 }

theorem baseTerm_replanned {i : Item} (hstate : i.state = .plannedIn) (place : Point × Nat) :
    baseTerm (replanned i place) = none := by
  simp [baseTerm, replanned, hstate]

theorem deltaTerm_replanned {i : Item} (hstate : i.state = .plannedIn) (place : Point × Nat) :
    deltaTerm (replanned i place) = some ⟨i.mass, place.1, place.2⟩ := by
  simp [deltaTerm, replanned, hstate]

/-- The item list after one entry is adopted. -/
def adoptItem (items : List Item) : TrialEntry → List Item
  | .add mass pos comp length breadth cls =>
    items ++ [newItem (lowestFree items) (adoptedFields mass pos comp length breadth cls)]
  | .move item pos comp voided =>
    if voided then items
    else
      match findItem item items with
      | none => items
      | some i => replaceItem (replanned i (pos, comp)) items

/-- A record found at a place it was given before moves on from it to the MOVE's place. -/
theorem adoptItem_move {items : List Item} {n : Nat} {i : Item} {place : Point × Nat}
    (hfind : findItem n items = some (replanned i place)) (pos : Point) (comp : Nat) :
    adoptItem items (.move n pos comp false) = replaceItem (replanned i (pos, comp)) items := by
  simp [adoptItem, hfind, replanned]

theorem applyTrial_move {items : List Item} {t : TrialTerms} {n : Nat} {i : Item} (hfind : findItem n items = some i)
    (pos : Point) (comp : Nat) :
    applyTrial items t (.move n pos comp false) =
      { terms := t.terms ++ [⟨-i.mass, (finalPlace i t.moved).1, (finalPlace i t.moved).2⟩, ⟨i.mass, pos, comp⟩]
        moved := (n, pos, comp) :: t.moved } := by
  simp [applyTrial, hfind]

theorem adoptEntry_items (p : List Nat × State) (e : TrialEntry) :
    (adoptEntry p e).2.stowage.items = adoptItem p.2.stowage.items e := by
  cases e with
  | add mass pos comp length breadth cls => simp only [adoptEntry, adoptItem, addRecord_stowage]
  | move item pos comp voided =>
    cases voided with
    | true => rfl
    | false =>
      cases hfind : findItem item p.2.stowage.items with
      | none => simp [adoptEntry, adoptItem, hfind]
      | some i => simp [adoptEntry, adoptItem, hfind, replanned]

/-- The item list after a stack is adopted. -/
theorem adoptEntries_items (stack : List TrialEntry) (p : List Nat × State) :
    (stack.foldl adoptEntry p).2.stowage.items = stack.foldl adoptItem p.2.stowage.items :=
  (List.foldl_hom (fun q : List Nat × State => q.2.stowage.items) (fun q e => (adoptEntry_items q e).symm)).symm

/-! ### The list follows the terms of the stack (R52) -/

/-- The terms `t` some trial entries have over the list `items`, and the list `adopted` that the same entries leave. -/
structure Follows (items : List Item) (t : TrialTerms) (adopted : List Item) : Prop where
  base : adopted.filterMap baseTerm = items.filterMap baseTerm
  plan : ∀ w, weigh w (adopted.filterMap deltaTerm) = weigh w (items.filterMap deltaTerm) + weigh w t.terms
  records : ∀ n i, findItem n items = some i → findItem n adopted = some (replanned i (finalPlace i t.moved))
  nodup : (adopted.map (·.number)).Nodup

theorem Follows.refl {items : List Item} (hnodup : (items.map (·.number)).Nodup) : Follows items ⟨[], []⟩ items where
  base := rfl
  plan _ := (Int.add_zero _).symm
  records _ _ h := h
  nodup := hnodup

section Steps

variable {items adopted : List Item} {t : TrialTerms} (h : Follows items t adopted)
include h

theorem Follows.add (hlen : adopted.length < 255) (mass : Int) (pos : Point) (comp : Nat) (length breadth : Int)
    (cls : Option Nat) :
    Follows items (applyTrial items t (.add mass pos comp length breadth cls))
      (adoptItem adopted (.add mass pos comp length breadth cls)) where
  base := by
    rw [adoptItem, List.filterMap_append, h.base]
    exact List.append_nil _
  plan w := by
    have hnew : deltaTerm (newItem (lowestFree adopted) (adoptedFields mass pos comp length breadth cls)) =
        some ⟨mass, pos, comp⟩ := rfl
    simp only [adoptItem, applyTrial, List.filterMap_append, List.filterMap_cons, List.filterMap_nil, hnew,
      weigh_append, h.plan w, Int.add_assoc]
  records n i hfind := by
    rw [findItem, adoptItem, List.find?_append]
    exact (congrArg (Option.or · _) (h.records n i hfind)).trans (Option.some_or)
  nodup := by
    have hfree : lowestFree adopted ∉ adopted.map (·.number) := by
      intro hmem
      obtain ⟨i, hi, hnumber⟩ := List.mem_map.mp hmem
      have hfind := findItem_of_mem h.nodup hi
      rw [hnumber, findItem_lowestFree hlen] at hfind
      cases hfind
    rw [adoptItem, List.map_append, List.nodup_append]
    refine ⟨h.nodup, List.nodup_cons.mpr ⟨List.not_mem_nil, List.nodup_nil⟩, fun m hm k hk hsame => hfree ?_⟩
    obtain rfl : k = lowestFree adopted := List.mem_singleton.mp hk
    exact hsame ▸ hm

theorem Follows.move {n : Nat} {i : Item} (hfind : findItem n items = some i) (hstate : i.state = .plannedIn)
    (pos : Point) (comp : Nat) :
    Follows items (applyTrial items t (.move n pos comp false)) (adoptItem adopted (.move n pos comp false)) := by
  have hold := h.records n i hfind
  have hnumber : i.number = n := findItem_number hfind
  obtain ⟨as, bs, hsplit, hreplace⟩ := replaceItem_place h.nodup hold
  rw [adoptItem_move hold, applyTrial_move hfind]
  refine ⟨?base, ?plan, ?records, ?nodup⟩
  case base =>
    rw [← h.base, hreplace (replanned i (pos, comp)) hnumber, hsplit]
    simp only [List.filterMap_append, List.filterMap_cons, baseTerm_replanned hstate]
  case plan =>
    intro w
    have hplan := h.plan w
    rw [hsplit] at hplan
    rw [hreplace (replanned i (pos, comp)) hnumber]
    simp only [List.filterMap_append, List.filterMap_cons, deltaTerm_replanned hstate, weigh_append, weigh_cons,
      weigh_nil, Int.neg_mul] at hplan ⊢
    omega
  case records =>
    intro m j hj
    have hm := findItem_number hj
    rw [findItem_replaceItem, h.records m j hj, Option.map_some]
    by_cases hmn : m = n
    · subst hmn
      obtain rfl : i = j := Option.some.inj (hfind.symm.trans hj)
      simp [replanned, finalPlace, hm]
    · have hne : j.number ≠ i.number := by omega
      have hplace : finalPlace j ((n, pos, comp) :: t.moved) = finalPlace j t.moved := by
        simp [finalPlace, hm, Ne.symm hmn]
      rw [hplace]
      exact congrArg some (if_neg hne)
  case nodup =>
    rw [map_number_replaceItem]
    exact h.nodup

end Steps

theorem length_adoptItem_move (items : List Item) (n : Nat) (pos : Point) (comp : Nat) (voided : Bool) :
    (adoptItem items (.move n pos comp voided)).length = items.length := by
  cases voided with
  | true => rfl
  | false =>
    cases hfind : findItem n items with
    | none => simp [adoptItem, hfind]
    | some i => simp [adoptItem, hfind, replaceItem]

/-- Every MOVE that is not VOID names a PLANNED_IN record (R48, R52). -/
def movesPlanned (items : List Item) (stack : List TrialEntry) : Prop :=
  ∀ n p c, TrialEntry.move n p c false ∈ stack → ∃ i, findItem n items = some i ∧ i.state = .plannedIn

/-- A whole stack: the list follows the terms up to the top. -/
theorem Follows.stack {items : List Item} (stack : List TrialEntry) {t : TrialTerms} {adopted : List Item}
    (h : Follows items t adopted) (hmoves : movesPlanned items stack)
    (hroom : adopted.length + countAdds stack ≤ 64) :
    Follows items (stack.foldl (applyTrial items) t) (stack.foldl adoptItem adopted) := by
  induction stack generalizing t adopted with
  | nil => exact h
  | cons e rest ih =>
    have hrest : movesPlanned items rest := fun n p c hmem => hmoves n p c (List.mem_cons_of_mem e hmem)
    cases e with
    | add mass pos comp length breadth cls =>
      have hcount : countAdds (.add mass pos comp length breadth cls :: rest) = countAdds rest + 1 := rfl
      refine ih (h.add (by omega) mass pos comp length breadth cls) hrest ?_
      rw [adoptItem, List.length_append, List.length_singleton]
      omega
    | move n pos comp voided =>
      have hstep : Follows items (applyTrial items t (.move n pos comp voided))
          (adoptItem adopted (.move n pos comp voided)) := by
        cases voided with
        | true => exact h
        | false =>
          obtain ⟨i, hfind, hstate⟩ := hmoves n pos comp List.mem_cons_self
          exact h.move hfind hstate pos comp
      refine ih hstep hrest ?_
      rw [length_adoptItem_move]
      exact hroom

/-- The list an adopted stack leaves counts in base as before, and plans the masses where the stack put them. -/
theorem adoptItems_plan {items : List Item} {stack : List TrialEntry} (hnodup : (items.map (·.number)).Nodup)
    (hmoves : movesPlanned items stack) (hroom : items.length + countAdds stack ≤ 64) :
    (stack.foldl adoptItem items).filterMap baseTerm = items.filterMap baseTerm ∧
      ∀ w, weigh w ((stack.foldl adoptItem items).filterMap deltaTerm) =
        weigh w (items.filterMap deltaTerm ++ trialTerms items stack) := by
  have h := (Follows.refl hnodup).stack stack hmoves hroom
  exact ⟨h.base, fun w => (h.plan w).trans (weigh_append w _ _).symm⟩

/-! ### What an adoption leaves of the station -/

/-- Two states alike in what a pass reads beside the list, the stack and the claim: the tables, the view, the sensor port,
the timer and the station state. -/
structure SameSurroundings (u v : State) : Prop where
  table : v.table = u.table
  view : v.view = u.view
  sensor : v.sensor = u.sensor
  timer : v.station.timer = u.station.timer
  state : v.station.state = u.station.state

namespace SameSurroundings

theorem refl (u : State) : SameSurroundings u u := ⟨rfl, rfl, rfl, rfl, rfl⟩

theorem trans {u v w : State} (h : SameSurroundings u v) (k : SameSurroundings v w) : SameSurroundings u w :=
  ⟨k.table.trans h.table, k.view.trans h.view, k.sensor.trans h.sensor, k.timer.trans h.timer, k.state.trans h.state⟩

theorem of_frame {bs : List Block} {u v : State} (h : onlyChanges bs u v)
    (hbs : ∀ b ∈ [Block.table, .view, .sensor, .station], b ∉ bs) : SameSurroundings u v := by
  have hstation : v.station = u.station := h .station (hbs _ (by decide))
  exact ⟨h .table (hbs _ (by decide)), h .view (hbs _ (by decide)), h .sensor (hbs _ (by decide)),
    congrArg (·.timer) hstation, congrArg (·.state) hstation⟩

section Reads

variable {u v : State} (h : SameSurroundings u v)
include h

theorem isLoaded_eq : v.isLoaded = u.isLoaded := by rw [State.isLoaded, State.isLoaded, h.table]

theorem img_eq : v.img = u.img := by rw [State.img, State.img, h.isLoaded_eq, h.table]

theorem sec_eq : v.sec = u.sec := by rw [State.sec, State.sec, h.isLoaded_eq, h.table]

theorem role_eq : v.role = u.role := by rw [State.role, State.role, h.sec_eq]

theorem owned_eq : v.ownCompartments = u.ownCompartments := by
  rw [State.ownCompartments, State.ownCompartments, h.img_eq, h.sec_eq]

theorem now_eq : v.now = u.now := h.timer

theorem period_eq : v.period = u.period := by rw [State.period, State.period, h.sec_eq]

theorem entriesAt_eq (now : Nat) : entriesAt v now = entriesAt u now := by
  rw [entriesAt, entriesAt, h.view, h.period_eq]

theorem windowAt_eq (now : Nat) : windowAt v now = windowAt u now := by
  rw [windowAt, windowAt, h.view, h.period_eq]

theorem portAt_eq (now : Nat) : portAt v now = portAt u now := by rw [portAt, portAt, h.sensor]

theorem agreementAt_eq (now : Nat) : agreementAt v now = agreementAt u now := by
  rw [agreementAt, agreementAt, h.view]

theorem working_eq : working v = working u := by rw [working, working, h.state]

theorem faulted_eq : faulted v = faulted u := by rw [faulted, faulted, h.state, h.isLoaded_eq]

theorem inclinometer_eq : v.inclinometer = u.inclinometer := by
  rw [State.inclinometer, State.inclinometer, State.craneData, State.craneData, h.role_eq, h.sec_eq]

theorem cleanAt_eq (now : Nat) : cleanAt v now = cleanAt u now := by
  rw [cleanAt, cleanAt, cleanPartsAt, cleanPartsAt, cleanPartsOf, cleanPartsOf, h.working_eq, h.entriesAt_eq,
    h.windowAt_eq, h.portAt_eq, h.agreementAt_eq, h.faulted_eq, h.role_eq, h.inclinometer_eq]

end Reads

end SameSurroundings

theorem activity_timer (s : State) : (activity s).station.timer = s.station.timer := by
  unfold activity wake latch evalAlarm
  split <;> simp_all

/-- An activity event of a station out of QUIET leaves what a pass reads. -/
theorem activity_surroundings {s : State} (hawake : s.station.state ≠ .quiet) : SameSurroundings s (activity s) where
  table := activity_frame s .table (by decide)
  view := activity_frame s .view (by decide)
  sensor := activity_frame s .sensor (by decide)
  timer := activity_timer s
  state := by rw [activity_state, if_neg hawake]

theorem itemEffects_surroundings {s : State} (before after : Option Item) (hawake : s.station.state ≠ .quiet) :
    SameSurroundings s (itemEffects before after s) := by
  have hbefore : SameSurroundings s (shareCause (markDirty (tagChange before after s))) :=
    ((SameSurroundings.of_frame (tagChange_frame before after s) (by decide)).trans
      (.of_frame (markDirty_frame _) (by decide))).trans (.of_frame (shareCause_frame _) (by decide))
  exact hbefore.trans (activity_surroundings (hbefore.state ▸ hawake))

theorem setStowage_surroundings (s : State) (v : Stowage) : SameSurroundings s (s.setStowage v) := ⟨rfl, rfl, rfl, rfl, rfl⟩

theorem setTrial_surroundings (s : State) (v : List TrialEntry) : SameSurroundings s (s.setTrial v) :=
  ⟨rfl, rfl, rfl, rfl, rfl⟩

theorem addRecord_surroundings {s : State} (i : Item) (hawake : s.station.state ≠ .quiet) :
    SameSurroundings s (addRecord i s) :=
  (setStowage_surroundings s _).trans (itemEffects_surroundings _ _ hawake)

theorem changeRecord_surroundings {s : State} (i : Item) (hawake : s.station.state ≠ .quiet) :
    SameSurroundings s (changeRecord i s) := by
  unfold changeRecord
  refine .trans ?_ (itemEffects_surroundings _ _ ?_)
  · split
    · exact (setStowage_surroundings s _).trans (setTrial_surroundings _ _)
    · exact setStowage_surroundings s _
  · split <;> exact hawake

theorem adoptEntry_surroundings {p : List Nat × State} (e : TrialEntry) (hawake : p.2.station.state ≠ .quiet) :
    SameSurroundings p.2 (adoptEntry p e).2 := by
  cases e with
  | add mass pos comp length breadth cls => exact addRecord_surroundings _ hawake
  | move item pos comp voided =>
    unfold adoptEntry
    dsimp only
    split
    · exact .refl _
    · split
      · exact .refl _
      · exact changeRecord_surroundings _ hawake

theorem adoptEntries_surroundings (stack : List TrialEntry) {p : List Nat × State}
    (hawake : p.2.station.state ≠ .quiet) : SameSurroundings p.2 (stack.foldl adoptEntry p).2 := by
  induction stack generalizing p with
  | nil => exact .refl _
  | cons e rest ih =>
    have hstep := adoptEntry_surroundings e hawake
    exact hstep.trans (ih (hstep.state ▸ hawake))

/-- An adoption leaves the list its entries leave, an empty stack, and what a pass reads beside. -/
theorem adopt_values {u : State} (q : Byte) (hawake : u.station.state ≠ .quiet) :
    SameSurroundings u (adopt q u) ∧ (adopt q u).trial = [] ∧
      (adopt q u).stowage.items = u.trial.foldl adoptItem u.stowage.items := by
  have hentries := adoptEntries_surroundings u.trial (p := ([], u)) hawake
  have hitems := adoptEntries_items u.trial ([], u)
  have hframe : onlyChanges [.memory, .panel]
      (markDirty ((u.trial.foldl adoptEntry ([], u)).2.setTrial [])) (adopt q u) := by
    unfold adopt
    dsimp only
    split
    · exact onlyChanges_mono (respond_frame _ _ _ _ _) (by decide)
    · exact acceptWrite_frame _ _ _ _
  refine ⟨?_, hframe .trial (by decide), ?_⟩
  · exact ((hentries.trans (setTrial_surroundings _ _)).trans (.of_frame (markDirty_frame _) (by decide))).trans
      (.of_frame hframe (by decide))
  · have hstowage : (adopt q u).stowage = _ := hframe .stowage (by decide)
    rw [hstowage]
    exact hitems

/-! ### FINAL before and after -/

theorem firstRefusal_eq_none {checks : List (Bool × ResultCode)} (h : firstRefusal checks = none) :
    ∀ c ∈ checks, c.1 = false := by
  induction checks with
  | nil => exact fun _ hc => absurd hc List.not_mem_nil
  | cons c rest ih =>
    obtain ⟨fails, r⟩ := c
    cases fails with
    | true => cases h
    | false => exact List.forall_mem_cons.mpr ⟨rfl, ih h⟩

theorem adoptEarly_none {u : State} (h : adoptEarly u = none) :
    u.role ≠ .tank ∧ u.stowage.items.length + countAdds u.trial ≤ 64 := by
  have hpass := firstRefusal_eq_none h
  have hrole : atTank u = false := hpass (atTank u, .role) (by simp)
  have hroom : decide (64 < u.stowage.items.length + countAdds u.trial) = false :=
    hpass (decide (64 < u.stowage.items.length + countAdds u.trial), .listFull) (by simp)
  exact ⟨of_decide_eq_false hrole, Nat.not_lt.mp (of_decide_eq_false hroom)⟩

/-- The pass inputs of two states alike in their surroundings, with the plan of both at the same places. -/
theorem SameSurroundings.sameFinal {u v : State} (h : SameSurroundings u v) (hrole : u.role ≠ .tank)
    (hbase : v.stowage.items.filterMap baseTerm = u.stowage.items.filterMap baseTerm)
    (hplan : ∀ w, weigh w (planTerms (snapshotOf v)) = weigh w (planTerms (snapshotOf u))) :
    SameFinal (passInput (snapshotOf u) u) (passInput (snapshotOf v) v) where
  image := h.img_eq
  owned := h.owned_eq
  notTank := ⟨hrole, fun htank => hrole (h.role_eq.symm.trans htank)⟩
  time := h.now_eq
  clean := (congrArg (cleanAt v) h.now_eq).trans (h.cleanAt_eq u.now)
  peers := (congrArg (entriesAt v) h.now_eq).trans (h.entriesAt_eq u.now)
  base := hbase
  plan := hplan

theorem asUsed_awake (dt : Nat) (s : State) : (asUsed dt s).station.state ≠ .quiet := by
  have hstation : (asUsed dt s).station = (asTaken dt s).station := asUsed_frame dt s .station (by decide)
  rw [hstation, asTaken, activity_state]
  split
  · decide
  · assumption

/-- Settles O34: the adopted list plans every mass where the trial stack had put it, and the stack is empty. -/
theorem adoptionKeepsFinal : Obligations.AdoptionKeepsFinal := by
  rintro dt n q s u t ⟨⟨-, hnodup, -⟩, -⟩ hmoves hadm rfl hearly hstack hexec
  obtain ⟨hrole, hroom⟩ := adoptEarly_none hearly
  have howner : trialAdoptOwner q true (asUsed dt s) = adopt q (asUsed dt s) :=
    (withoutBody_fits hrole).trans (by simp only [adoptStack, hearly, hstack])
  obtain rfl : adopt q (asUsed dt s) = t :=
    Host.Outcome.next.inj (((exec_trialAdopt hadm).trans (congrArg _ howner)).symm.trans hexec)
  obtain ⟨hsame, hempty, hitems⟩ := adopt_values q (asUsed_awake dt s)
  have hlist : (asUsed dt s).stowage = s.stowage :=
    (asUsed_frame dt s .stowage (by decide)).trans (asTaken_frame dt s .stowage (by decide))
  have htrial : (asUsed dt s).trial = s.trial :=
    (asUsed_frame dt s .trial (by decide)).trans (asTaken_frame dt s .trial (by decide))
  have hplanned : movesPlanned (asUsed dt s).stowage.items (asUsed dt s).trial := by
    rw [hlist, htrial]
    intro m p c hmem
    obtain ⟨i, hi, rfl, hstate⟩ := hmoves m p c hmem
    exact ⟨i, findItem_of_mem hnodup hi, hstate⟩
  obtain ⟨hbase, hplan⟩ := adoptItems_plan (hlist ▸ hnodup) hplanned hroom
  refine (hsame.sameFinal hrole (hitems ▸ hbase) fun w => ?_).finalRecord_eq n
  have hleft : planTerms (snapshotOf (adopt q (asUsed dt s))) =
      ((asUsed dt s).trial.foldl adoptItem (asUsed dt s).stowage.items).filterMap deltaTerm := by
    simp only [planTerms, snapshotOf, hempty, hitems, trialTerms, List.foldl_nil, List.append_nil]
  rw [hleft]
  exact hplan w

end Sys2Proof.Machine
end
